-- ==== Sys2Proof/Word.lean ====
section
/-! DEFINITION. The words the core moves: stream bytes, command words and their operand field. -/

namespace Sys2Proof

/-- One byte of the video stream, of the queue or of a sample component (00_scope.md R10). -/
abbrev Byte := BitVec 8

/-- The operand field `arg[23:0]` of a command word (30_encoding.md R120). -/
abbrev Arg := BitVec 24

/-- A command word, `op[3:0]` above `arg[23:0]` (30_encoding.md R120). -/
abbrev CommandWord := BitVec 28

end Sys2Proof
end

