-- ==== Sys2Proof/Config.lean ====
section
/-! DEFINITION. What an implementation of the core fixes (00_scope.md R9), and the free values. -/

namespace Sys2Proof

/-- A width parameter: a number of bits, or "unbounded" (00_scope.md R9, last paragraph). -/
inductive Width where
  | bits (n : Nat)
  | unbounded
deriving DecidableEq, Repr

/-- `MODE` of 00_scope.md R9 and R12: the producer pushes, or the producer decodes inline. -/
inductive Mode where
  | buffered
  | direct
deriving DecidableEq, Repr

/-- `ERRCNT_POLICY` of 00_scope.md R9 and 10_state.md R42. -/
inductive ErrcntPolicy where
  | frozen
  | free
deriving DecidableEq, Repr

/-- The values asked for when an instance is set up (00_scope.md R9), within its constraints or not. -/
structure Setup where
  qcap : Nat
  mode : Mode
  xyw : Width
  statw : Width
  timew : Width
  maxw : Nat
  demuxMarker3 : Bool
  errcntPolicy : ErrcntPolicy
deriving DecidableEq, Repr

/-- A width parameter is at least 1 (00_scope.md R9). -/
def Width.legal : Width → Bool
  | .bits n => decide (1 ≤ n)
  | .unbounded => true

/-- The constraints of 00_scope.md R9; values outside them build no instance (60_exceptions.md R287). -/
def Setup.legal (p : Setup) : Bool :=
  decide (1 ≤ p.qcap) && p.xyw.legal && p.statw.legal && p.timew.legal && decide (1 ≤ p.maxw)

/-- The parameters of one core instance (00_scope.md R9): values with the proof that they are within the
constraints (60_exceptions.md R287: "its configuration type carries the proof").  They are held in the state,
where no step writes them (10_state.md R47), so that a statement about every state holds for every
configuration (DESIGN CHOICE, log entry 1). -/
structure Params extends Setup where
  ok : toSetup.legal = true := by decide
deriving DecidableEq, Repr

/-- The recommended defaults of 00_scope.md R9.  `qcap` has none there: 4 is the capacity of most of
the spec's own vectors (DESIGN CHOICE, unsafe for statements about `State.reset` alone, log entry 1). -/
def Params.default : Params :=
  { qcap := 4, mode := .buffered, xyw := .bits 16, statw := .bits 32, timew := .bits 32,
    maxw := 16, demuxMarker3 := false, errcntPolicy := .frozen }

/-- The `k`-th reading of the timebase `now()` (00_scope.md R16): a free value, log entry 9. -/
opaque Config.now : Nat → Nat

/-- The `k`-th value a SAMPLE leaves in `avg_service_time` (44_capture_queue.md R227): a free value, log entry 10. -/
opaque Config.avgServiceTime : Nat → Nat

/-- The `k`-th rise of an error counter under `ERRCNT_POLICY = free` (10_state.md R42): a free value, log entry 11. -/
opaque Config.errorRise : Nat → Nat

/-- What cell `a` of the queue memory holds at power-on (10_state.md R35, "unspecified"): a free value, log entry 2. -/
opaque Config.bufAtPowerOn : Nat → Byte

end Sys2Proof
end

