-- ==== Sys2Proof/Syntax.lean ====
section
/-! DEFINITION. The instructions: one constructor per row of spec/opcode_table.json, and the names their
decoding depends on (detector state, pixel phase, sync flags, event kind). -/

namespace Sys2Proof

/-- The timing-reference detector's state (10_state.md R21): five named states, and the three codes of
three bits that name none. -/
inductive Fsm where
  | idle
  | ff
  | ff00
  | ff0000
  | controlByte
  | undef5
  | undef6
  | undef7
deriving DecidableEq, Repr

/-- Which byte of a sample group the next data byte is (10_state.md R22). -/
inductive Phase where
  | y1
  | cb
  | y2
  | cr
deriving DecidableEq, Repr

/-- The Sync Flags of one control byte (10_state.md R25, 30_encoding.md R103); `eav` is `not sav`. -/
structure SyncFlags where
  field : Bool
  vsync : Bool
  hsync : Bool
  sav : Bool
deriving DecidableEq, Repr

/-- "eav (= ¬sav, mutually exclusive by construction)" (10_state.md R25). -/
def SyncFlags.eav (f : SyncFlags) : Bool := !f.sav

/-- The four event kinds, the operand `k` of SETOBS (45_control_ops.md R253). -/
inductive ObsKind where
  | pixel
  | rgb
  | line
  | frame
deriving DecidableEq, Repr

/-- Every row of spec/opcode_table.json.  The first sixteen are command words (30_encoding.md R120), the
next nine the classes of a stream byte (R109), the last five the second-level classes of a data byte (R104).
A class that one byte value spells has no operand; a control byte's operand is its four flags, since no
rule reads its other bits (R110). -/
inductive Instr where
  | pbyte (b : Byte)
  | reset
  | setobs (k : ObsKind) (v : Bool)
  | rdstat (i : BitVec 4)
  | push (b : Byte)
  | drain (n : Nat)
  | avail
  | pop
  | sample (b : Byte)
  | dstatrst
  | cstatrst
  | ycc2rgb (y cb cr : Byte)
  | rgb2565 (r g b : Byte)
  | ycc2gray (y cb cr : Byte)
  | unassignedE
  | unassignedF
  | idleFf
  | idleAny (b : Byte)
  | ffZero
  | ffAny (b : Byte)
  | ff00Zero
  | ff00Any (b : Byte)
  | xy (f : SyncFlags)
  | xyLate (f : SyncFlags)
  | undefAny (b : Byte)
  | dataY1 (b : Byte)
  | dataCb (b : Byte)
  | dataY2 (b : Byte)
  | dataCr (b : Byte)
  | dataDiscard (b : Byte)
deriving DecidableEq, Repr

end Sys2Proof
end

