-- ==== Sys2Proof/WellFormed.lean ====
section
/-! DEFINITION. Which instruction terms the core can be given. -/

namespace Sys2Proof

/-- How many bits of a command word hold DRAIN's operand: `arg[MAXW-1:0]` (30_encoding.md R120), where `arg` has
24 bits.  With `MAXW` above 24 a command word spells the operands below `2^24`, and the others enter by the port
`drain_max` of 00_scope.md R13 (DESIGN CHOICE, log entry 16). -/
def Params.drainBits (p : Params) : Nat := min p.maxw 24

/-- An instruction the core can be given under the parameters `p`: DRAIN's operand is below `2^MAXW`
(30_encoding.md R121), and a class tried after a class for one byte value does not hold that byte
(R109: "the rows of one `fsm` value are tried top to bottom and the first that matches wins"). -/
def wellFormed (p : Params) : Instr → Bool
  | .drain n => decide (n < 2 ^ p.maxw)
  | .idleAny b => decide (b ≠ 0xFF#8)
  | .ffAny b => decide (b ≠ 0x00#8)
  | .ff00Any b => decide (b ≠ 0x00#8)
  | .pbyte _ | .reset | .setobs _ _ | .rdstat _ | .push _ | .avail | .pop | .sample _
  | .dstatrst | .cstatrst | .ycc2rgb _ _ _ | .rgb2565 _ _ _ | .ycc2gray _ _ _
  | .unassignedE | .unassignedF | .idleFf | .ffZero | .ff00Zero | .xy _ | .xyLate _
  | .undefAny _ | .dataY1 _ | .dataCb _ | .dataY2 _ | .dataCr _ | .dataDiscard _ => true

end Sys2Proof
end

