-- ==== Sys2Proof/Decode.lean ====
section
/-! DEFINITION. The decoder of command words and of stream bytes, total and rejecting by name, and the
encoder, both written from the encodings of spec/30_encoding.md and spec/opcode_table.json. -/

namespace Sys2Proof

/-- What the core is given to decode: a command word on `op`, `arg`, or a byte on `din` (00_scope.md R13).
A byte carries no length and no prefix (30_encoding.md R100), and a command word is one 28-bit port word,
never a sequence of bytes (20_memory.md R72). -/
inductive InstrWord where
  | command (w : CommandWord)
  | byte (b : Byte)
deriving DecidableEq, Repr

/-- How a word is read: as a command word with `drainBits` bits of DRAIN operand, as a stream byte by the
detector's state (30_encoding.md R109), or as a data byte by `active` and `phase` (R104, R147). -/
inductive Reading where
  | command (drainBits : Nat)
  | stream (fsm : Fsm)
  | data (active : Bool) (phase : Phase)
deriving DecidableEq, Repr

/-- Why a word is not decoded. -/
inductive DecodeError where
  /-- a byte was given where a command word is read. -/
  | notACommandWord
  /-- a command word was given where a stream byte is read. -/
  | notAByte
  /-- a word is neither 8 bits (a stream byte) nor 28 bits, in 32 when rounded up to whole bytes. -/
  | noSuchWidth (nbits : Nat)
  /-- the value does not fit the word's 8 or 28 bits. -/
  | valueTooWide (w : Nat)
deriving DecidableEq, Repr

/-! ### The codes of 10_state.md R21 and R22 -/

/-- The three-bit code of a detector state (10_state.md R21). -/
def fsmCode : Fsm → BitVec 3
  | .idle => 0#3
  | .ff => 1#3
  | .ff00 => 2#3
  | .ff0000 => 3#3
  | .controlByte => 4#3
  | .undef5 => 5#3
  | .undef6 => 6#3
  | .undef7 => 7#3

/-- The detector state of a three-bit code (10_state.md R21): all eight codes have one. -/
def fsmOfCode (c : BitVec 3) : Fsm :=
  match c.toNat with
  | 0 => .idle
  | 1 => .ff
  | 2 => .ff00
  | 3 => .ff0000
  | 4 => .controlByte
  | 5 => .undef5
  | 6 => .undef6
  | _ => .undef7

/-- The two-bit code of a pixel phase (10_state.md R22). -/
def phaseCode : Phase → BitVec 2
  | .y1 => 0#2
  | .cb => 1#2
  | .y2 => 2#2
  | .cr => 3#2

/-- The pixel phase of a two-bit code (10_state.md R22): all four codes are defined. -/
def phaseOfCode (c : BitVec 2) : Phase :=
  match c.toNat with
  | 0 => .y1
  | 1 => .cb
  | 2 => .y2
  | _ => .cr

/-! ### Fields -/

/-- `{a, b}`, the bits of `a` above those of `b` (00_scope.md R14), as a word of `k` bits. -/
def cat (k : Nat) {m n : Nat} (a : BitVec m) (b : BitVec n) : BitVec k :=
  (a.setWidth k <<< n) ||| b.setWidth k

/-- `op[3:0]`, bits 27 to 24 of a command word (30_encoding.md R120). -/
def opField (w : CommandWord) : BitVec 4 := w.extractLsb' 24 4

/-- `arg[23:0]`, bits 23 to 0 of a command word (30_encoding.md R120). -/
def argField (w : CommandWord) : Arg := w.extractLsb' 0 24

/-- `arg[7:0]`. -/
def argLow (a : Arg) : Byte := a.extractLsb' 0 8

/-- `arg[15:8]`. -/
def argMid (a : Arg) : Byte := a.extractLsb' 8 8

/-- `arg[23:16]`. -/
def argHigh (a : Arg) : Byte := a.extractLsb' 16 8

/-- SETOBS's `k` in `arg[1:0]`: 0 pixel, 1 rgb, 2 line, 3 frame (30_encoding.md R120). -/
def obsKindOfCode (c : BitVec 2) : ObsKind :=
  match c.toNat with
  | 0 => .pixel
  | 1 => .rgb
  | 2 => .line
  | _ => .frame

/-- The code of an event kind (30_encoding.md R120). -/
def obsKindCode : ObsKind → BitVec 2
  | .pixel => 0#2
  | .rgb => 1#2
  | .line => 2#2
  | .frame => 3#2

/-- The flags of a control byte: bit 6 field, bit 5 vsync, bit 4 hsync, bit 3 sav (30_encoding.md R102, R103);
bits 7, 2, 1 and 0 are read by no rule (R110). -/
def controlFlags (c : Byte) : SyncFlags :=
  { field := c.getLsbD 6, vsync := c.getLsbD 5, hsync := c.getLsbD 4, sav := c.getLsbD 3 }

/-! ### The decoder -/

/-- A command word (30_encoding.md R120, R121).  Every one of the sixteen select codes is a row of the table,
so every word has an instruction; bits of `arg` an operation does not name are ignored. -/
def decodeCommand (drainBits : Nat) (w : CommandWord) : Instr :=
  let a := argField w
  match (opField w).toNat with
  | 0 => .pbyte (argLow a)
  | 1 => .reset
  | 2 => .setobs (obsKindOfCode (a.extractLsb' 0 2)) (a.getLsbD 2)
  | 3 => .rdstat (a.extractLsb' 0 4)
  | 4 => .push (argLow a)
  | 5 => .drain (a.toNat % 2 ^ drainBits)
  | 6 => .avail
  | 7 => .pop
  | 8 => .sample (argLow a)
  | 9 => .dstatrst
  | 10 => .cstatrst
  | 11 => .ycc2rgb (argHigh a) (argMid a) (argLow a)
  | 12 => .rgb2565 (argHigh a) (argMid a) (argLow a)
  | 13 => .ycc2gray (argHigh a) (argMid a) (argLow a)
  | 14 => .unassignedE
  | _ => .unassignedF   -- the four-bit field leaves 15 alone here

/-- The class of a stream byte, by the detector's state at the start of the step (30_encoding.md R109). -/
def decodeStream (f : Fsm) (b : Byte) : Instr :=
  match f with
  | .idle => if b = 0xFF#8 then .idleFf else .idleAny b
  | .ff => if b = 0x00#8 then .ffZero else .ffAny b
  | .ff00 => if b = 0x00#8 then .ff00Zero else .ff00Any b
  | .ff0000 => .xy (controlFlags b)
  | .controlByte => .xyLate (controlFlags b)
  | .undef5 | .undef6 | .undef7 => .undefAny b

/-- The second-level class of a data byte, by `active` and `phase` (30_encoding.md R104, R109; 42 R189). -/
def decodeData (active : Bool) (phase : Phase) (b : Byte) : Instr :=
  match active, phase with
  | false, _ => .dataDiscard b
  | true, .y1 => .dataY1 b
  | true, .cb => .dataCb b
  | true, .y2 => .dataY2 b
  | true, .cr => .dataCr b

/-- The decoder: total, and a word of the wrong kind is rejected by name. -/
def decode : Reading → InstrWord → Except DecodeError Instr
  | .command n, .command w => .ok (decodeCommand n w)
  | .command _, .byte _ => .error .notACommandWord
  | .stream f, .byte b => .ok (decodeStream f b)
  | .stream _, .command _ => .error .notAByte
  | .data act ph, .byte b => .ok (decodeData act ph b)
  | .data _ _, .command _ => .error .notAByte

/-- The readings in which a word spells the instruction: the `format` and `context` of spec/opcode_table.json, and
for DRAIN an operand that the field of a command word holds (log entry 16). -/
def Instr.appliesIn (p : Params) : Instr → Reading → Bool
  | .idleFf, r | .idleAny _, r => decide (r = .stream .idle)
  | .ffZero, r | .ffAny _, r => decide (r = .stream .ff)
  | .ff00Zero, r | .ff00Any _, r => decide (r = .stream .ff00)
  | .xy _, r => decide (r = .stream .ff0000)
  | .xyLate _, r => decide (r = .stream .controlByte)
  | .undefAny _, r =>
      decide (r = .stream .undef5) || decide (r = .stream .undef6) || decide (r = .stream .undef7)
  | .dataY1 _, r => decide (r = .data true .y1)
  | .dataCb _, r => decide (r = .data true .cb)
  | .dataY2 _, r => decide (r = .data true .y2)
  | .dataCr _, r => decide (r = .data true .cr)
  | .dataDiscard _, .data act _ => !act
  | .dataDiscard _, .command _ | .dataDiscard _, .stream _ => false
  | .drain n, r => decide (r = .command p.drainBits) && decide (n < 2 ^ p.drainBits)
  | .pbyte _, r | .reset, r | .setobs _ _, r | .rdstat _, r | .push _, r | .avail, r
  | .pop, r | .sample _, r | .dstatrst, r | .cstatrst, r | .ycc2rgb _ _ _, r | .rgb2565 _ _ _, r
  | .ycc2gray _ _ _, r | .unassignedE, r | .unassignedF, r => decide (r = .command p.drainBits)

/-! ### The encoder (ignored bits are written 0, log entry 24) -/

/-- A command word from its two fields, `op` in the high bits (30_encoding.md R120). -/
def commandWord (op : BitVec 4) (a : Arg) : CommandWord := cat 28 op a

/-- `arg` with one byte operand in `arg[7:0]`. -/
def byteArg (b : Byte) : Arg := b.setWidth 24

/-- `arg` with three byte operands, the first in `arg[23:16]`. -/
def threeByteArg (x y z : Byte) : Arg := cat 24 x (cat 16 y z)

/-- A control byte with the given flags (30_encoding.md R102). -/
def controlByteOf (f : SyncFlags) : Byte :=
  cat 8 (BitVec.ofBool f.field)
    (cat 6 (BitVec.ofBool f.vsync) (cat 5 (BitVec.ofBool f.hsync) (cat 4 (BitVec.ofBool f.sav) 0#3)))

/-- The word of an instruction, from the encoding column of spec/opcode_table.json. -/
def encode : Instr → InstrWord
  | .pbyte b => .command (commandWord 0x0#4 (byteArg b))
  | .reset => .command (commandWord 0x1#4 0#24)
  | .setobs k v =>
      .command (commandWord 0x2#4 (cat 24 (BitVec.ofBool v) (obsKindCode k)))
  | .rdstat i => .command (commandWord 0x3#4 (i.setWidth 24))
  | .push b => .command (commandWord 0x4#4 (byteArg b))
  | .drain n => .command (commandWord 0x5#4 (BitVec.ofNat 24 n))
  | .avail => .command (commandWord 0x6#4 0#24)
  | .pop => .command (commandWord 0x7#4 0#24)
  | .sample b => .command (commandWord 0x8#4 (byteArg b))
  | .dstatrst => .command (commandWord 0x9#4 0#24)
  | .cstatrst => .command (commandWord 0xA#4 0#24)
  | .ycc2rgb y cb cr => .command (commandWord 0xB#4 (threeByteArg y cb cr))
  | .rgb2565 r g b => .command (commandWord 0xC#4 (threeByteArg r g b))
  | .ycc2gray y cb cr => .command (commandWord 0xD#4 (threeByteArg y cb cr))
  | .unassignedE => .command (commandWord 0xE#4 0#24)
  | .unassignedF => .command (commandWord 0xF#4 0#24)
  | .idleFf => .byte 0xFF#8
  | .idleAny b => .byte b
  | .ffZero => .byte 0x00#8
  | .ffAny b => .byte b
  | .ff00Zero => .byte 0x00#8
  | .ff00Any b => .byte b
  | .xy f => .byte (controlByteOf f)
  | .xyLate f => .byte (controlByteOf f)
  | .undefAny b => .byte b
  | .dataY1 b => .byte b
  | .dataCb b => .byte b
  | .dataY2 b => .byte b
  | .dataCr b => .byte b
  | .dataDiscard b => .byte b

/-- A table row's word, given as a number of `nbits` bits: 8 bits are a stream byte, 28 bits (32 when rounded
up to whole bytes) a command word. -/
def InstrWord.ofBits (nbits w : Nat) : Except DecodeError InstrWord :=
  if nbits = 8 then
    if w < 2 ^ 8 then .ok (.byte (BitVec.ofNat 8 w)) else .error (.valueTooWide w)
  else if nbits = 28 ∨ nbits = 32 then
    if w < 2 ^ 28 then .ok (.command (BitVec.ofNat 28 w)) else .error (.valueTooWide w)
  else .error (.noSuchWidth nbits)

/-- The host's view of the decoder.  A byte is read in the detector state after reset, IDLE, because the
number alone carries no context: thirteen of the table's fourteen 8-bit rows share the word 0 (log entry 12). -/
def decodeTableWord (nbits w : Nat) : Option Instr :=
  match InstrWord.ofBits nbits w with
  | .ok (.command c) => some (decodeCommand Params.default.drainBits c)
  | .ok (.byte b) => some (decodeStream .idle b)
  | .error _ => none

end Sys2Proof
end

