-- ==== Sys2Proof/Machine/State.lean ====
section
/-! DEFINITION. The state of one core instance with its parameters, its output, and the agents that issue
its operations; the reasons a step can stop; the state after power-on. -/

namespace Sys2Proof.Machine

open Sys2Proof

/-! ### Why a step can stop -/

/-- The faults of a step.  The core itself raises none (60_exceptions.md R280). -/
inductive Fault where
  /-- PUSH, POP, DRAIN, SERVICE or SAMPLE would touch the queue memory at an index outside `0 .. QCAP-1`.
  20_memory.md R71: this "cannot occur and has no defined behaviour to model"; it happens only in states
  outside `State.Inv`.  Safe: the model stops where the spec defines nothing (log entry 3). -/
  | bufIndexOutOfRange
deriving DecidableEq, Repr

/-- The refusals of a step. -/
inductive Refusal where
  /-- Raised by an arm of `exec` whose instruction has no meaning yet; no arm is left so.  Safe. -/
  | notModelled (mnemonic : String)
deriving DecidableEq, Repr

/-- Why an instance is not built (60_exceptions.md R287). -/
inductive SetupFailure where
  /-- The parameters violate 00_scope.md R9.  Safe: no state exists. -/
  | setupRefused
deriving DecidableEq, Repr

/-! ### Output records -/

/-- The four event records (30_encoding.md R106). -/
inductive Event where
  | frame
  | line (lineNumber : Nat)
  | pixel (y cb cr : Byte) (xpos ypos : Nat)
  | rgb (r g b : Byte) (xpos ypos : Nat)
deriving DecidableEq, Repr

/-- The results of the operations that return one (30_encoding.md R120).  `pop_data` is unspecified when
`pop_valid = 0`, so a POP's result is an option (93 U8). -/
inductive Result where
  | pushAccepted (accepted : Bool)
  | popped (data : Option Byte)
  | drained (bytes : List Byte)
  | available (count : Nat)
  /-- the `result` port: RDSTAT and the three color functions, zero-extended (45 R254). -/
  | port (value : Nat)
deriving DecidableEq, Repr

/-! ### The agents, outside the core -/

/-- The three agents (00_scope.md R7). -/
inductive Agent where
  | producer
  | consumer
  | host
deriving DecidableEq, Repr

/-- What an agent does next when it has no DRAIN in progress. -/
inductive Request where
  /-- issue the command word `w` on `op`, `arg` (30_encoding.md R120). -/
  | command (w : CommandWord)
  /-- give the byte `b` to `din`: one PBYTE step (40 R140, 00_scope.md R13). -/
  | byte (b : Byte)
  /-- put `n` on the port `drain_max`: DRAIN of its low `MAXW` bits (00_scope.md R13, 44 R222). -/
  | drainMax (n : Nat)
  /-- a detected clock edge with `vd = b`: one SAMPLE step (44 R226, 60 R288). -/
  | edge (b : Byte)
  /-- PBYTE of the oldest byte in the agent's staging buffer (44 R228). -/
  | feed
  /-- the consumer loop SERVICE `n` (44 R229). -/
  | service (n : Nat)
  /-- drop the bytes in the agent's staging buffer (20_memory.md R83). -/
  | discard
deriving DecidableEq, Repr

/-- A DRAIN in progress (44 R222): at most `remaining` further POPs, the bytes got so far, oldest first, and
whether it is the DRAIN of a SERVICE, whose bytes are kept here and then fed (R229). -/
structure Drain where
  remaining : Nat
  got : List Byte
  thenFeed : Bool
deriving DecidableEq, Repr

/-- One agent: what it will issue (oldest first), its DRAIN in progress, and its staging buffer, the bytes it
got by POP or DRAIN and has neither fed nor dropped, oldest first (10_state.md R55). -/
structure AgentCtx where
  requests : List Request
  drain : Option Drain
  staging : List Byte
deriving DecidableEq, Repr

/-! ### The core -/

/-- The queue memory `buf`: written cells by index, in strictly rising order of index.  A cell not listed has
not been written since power-on (10_state.md R35). -/
abbrev Memory := List Host.Cell

/-- The four observer-enable bits (10_state.md R46). -/
structure Observers where
  pixel : Bool
  rgb : Bool
  line : Bool
  frame : Bool
deriving DecidableEq, Repr

/-- The Decoder Context (10_state.md R20). -/
structure Decoder where
  fsm : Fsm
  phase : Phase
  active : Bool
  lastFlags : SyncFlags
  frameStarted : Bool
  lineStarted : Bool
  lineCount : Nat
  pixelCount : Nat
  curY : Byte
  curCb : Byte
  curCr : Byte
  obs : Observers
deriving DecidableEq, Repr

/-- The Capture Queue (10_state.md R35 to R37). -/
structure Queue where
  buf : Memory
  wr : Nat
  rd : Nat
  full : Bool
deriving DecidableEq, Repr

/-- The Decoder Statistics (10_state.md R40). -/
structure DecoderStats where
  framesReceived : Nat
  linesReceived : Nat
  pixelsReceived : Nat
  timingErrors : Nat
  syncErrors : Nat
  dataErrors : Nat
  lastFrameTime : Nat
deriving DecidableEq, Repr

/-- The Capture Statistics (10_state.md R41). -/
structure CaptureStats where
  interruptsHandled : Nat
  bytesCaptured : Nat
  bufferOverflows : Nat
  missedSamples : Nat
  avgServiceTime : Nat
  lastServiceTime : Nat
deriving DecidableEq, Repr

/-- The whole machine: the parameters (written by no step), the core's tuple (10_state.md R20), what a run
shows (00_scope.md R18), the agents and the order of their steps, and the model's counter of free values
taken.  Counters are naturals kept below their width by saturation (00_scope.md R15, log entry 15). -/
structure State where
  params : Params
  dec : Decoder
  queue : Queue
  dstat : DecoderStats
  cstat : CaptureStats
  trace : List Event
  results : List Result
  producer : AgentCtx
  consumer : AgentCtx
  host : AgentCtx
  turns : List Agent
  running : Agent
  draws : Nat
deriving DecidableEq, Repr

/-! ### Power-on -/

/-- The Decoder Context at power-on (10_state.md R60). -/
def Decoder.powerOn : Decoder :=
  { fsm := .idle, phase := .y1, active := false,
    lastFlags := { field := false, vsync := false, hsync := false, sav := false },
    frameStarted := false, lineStarted := false, lineCount := 0, pixelCount := 0,
    curY := 0#8, curCb := 0#8, curCr := 0#8,
    obs := { pixel := false, rgb := false, line := false, frame := false } }

/-- The empty queue of power-on, no cell written (10_state.md R60). -/
def Queue.powerOn : Queue := { buf := [], wr := 0, rd := 0, full := false }

/-- The Decoder Statistics at power-on (10_state.md R60). -/
def DecoderStats.zero : DecoderStats :=
  { framesReceived := 0, linesReceived := 0, pixelsReceived := 0,
    timingErrors := 0, syncErrors := 0, dataErrors := 0, lastFrameTime := 0 }

/-- The Capture Statistics at power-on (10_state.md R60). -/
def CaptureStats.zero : CaptureStats :=
  { interruptsHandled := 0, bytesCaptured := 0, bufferOverflows := 0,
    missedSamples := 0, avgServiceTime := 0, lastServiceTime := 0 }

/-- An agent that has nothing to do (DESIGN CHOICE, log entry 4). -/
def AgentCtx.quiet : AgentCtx := { requests := [], drain := none, staging := [] }

/-- The power-on state of an instance with parameters `p` (10_state.md R60, 70 R310).  The agents' fields,
the two output lists, `running` and `draws` are the model's own (DESIGN CHOICE, log entries 4, 8, 9). -/
def State.powerOn (p : Params) : State :=
  { params := p, dec := Decoder.powerOn, queue := Queue.powerOn,
    dstat := DecoderStats.zero, cstat := CaptureStats.zero, trace := [], results := [],
    producer := AgentCtx.quiet, consumer := AgentCtx.quiet, host := AgentCtx.quiet,
    turns := [], running := .host, draws := 0 }

/-- The machine right after reset: power-on with the recommended defaults of 00_scope.md R9 and `QCAP = 4`
(log entry 1). -/
def State.reset : State := State.powerOn Params.default

end Sys2Proof.Machine
end

