-- ==== Sys2Proof/Machine/Ops.lean ====
section
/-! DEFINITION. The operations the meanings share: saturating counters, free values, events, results, the queue
memory and the queue, the agents' contexts, instantiation.  The core takes no exception and has no return from
one (60_exceptions.md R280, R292, R293): what stands in their place, the emission of an event, is `emit`. -/

namespace Sys2Proof.Machine

open Sys2Proof

/-! ### Instantiation -/

/-- Creation of an instance: the power-on state, or `SetupRefused` for values outside 00_scope.md R9
(45 R256, 60 R287). -/
def create (v : Setup) : Except SetupFailure State :=
  if h : v.legal = true then .ok (State.powerOn { toSetup := v, ok := h }) else .error .setupRefused

/-! ### Counters and widths -/

/-- `inc(c)` for a counter of width `w` (00_scope.md R15): one more, or its value at and above `2^W - 1`. -/
def inc (w : Width) (c : Nat) : Nat :=
  match w with
  | .bits n => if c < 2 ^ n - 1 then c + 1 else c
  | .unbounded => c + 1

/-- `v` as a `w`-bit value. -/
def cut (w : Width) (v : Nat) : Nat :=
  match w with
  | .bits n => v % 2 ^ n
  | .unbounded => v

/-- A value of width `w` not below `old`, picked by the free value `v` (10_state.md R42): over all `v` it takes
every value from `old` to the counter's top. -/
def notBelow (w : Width) (old v : Nat) : Nat :=
  match w with
  | .bits n => if old < 2 ^ n then old + v % (2 ^ n - old) else old
  | .unbounded => old + v

/-- `c` is a value of width `w`. -/
def fits (w : Width) (c : Nat) : Bool :=
  match w with
  | .bits n => decide (c < 2 ^ n)
  | .unbounded => true

/-! ### Output -/

/-- `emit E(args)` (00_scope.md R14, 60 R289): the record joins the trace if the observer bit `on` is 1, and
nothing does if it is 0. -/
def emit (on : Bool) (e : Event) (s : State) : State :=
  { s with trace := s.trace ++ (if on then [e] else []) }

/-- An operation returns `r` (00_scope.md R18). -/
def giveResult (r : Result) (s : State) : State := { s with results := s.results ++ [r] }

/-! ### Agents -/

/-- The context of an agent. -/
def ctxOf (s : State) : Agent → AgentCtx
  | .producer => s.producer
  | .consumer => s.consumer
  | .host => s.host

/-- The state with an agent's context replaced. -/
def setCtx (a : Agent) (c : AgentCtx) (s : State) : State :=
  match a with
  | .producer => { s with producer := c }
  | .consumer => { s with consumer := c }
  | .host => { s with host := c }

/-- The popped byte joins the staging buffer of the agent whose step this is (10_state.md R55, 44 R228). -/
def stage (b : Byte) (s : State) : State :=
  setCtx s.running { ctxOf s s.running with staging := (ctxOf s s.running).staging ++ [b] } s

/-! ### The queue memory -/

/-- The stored byte of cell `a`; `none` if the cell has not been written since power-on. -/
def Memory.find (m : Memory) (a : Nat) : Option Byte :=
  match m with
  | [] => none
  | (k, v) :: rest => if k = a then some v else Memory.find rest a

/-- Cell `a` set to `v`, the list kept in strictly rising order of index. -/
def Memory.store (m : Memory) (a : Nat) (v : Byte) : Memory :=
  match m with
  | [] => [(a, v)]
  | (k, w) :: rest =>
      if a < k then (a, v) :: (k, w) :: rest
      else if a = k then (a, v) :: rest
      else (k, w) :: Memory.store rest a v

/-- The canonical form: indices strictly rising.  An unlisted cell has no stored value, so no entry can equal
what an unlisted cell reads as. -/
def Memory.wf (m : Memory) : Bool :=
  match m with
  | [] => true
  | (k, _) :: rest => rest.all (fun c => decide (k < c.1)) && Memory.wf rest

/-- What cell `a` holds: its stored byte, or its unspecified power-on content, a free value
(10_state.md R35, 93 U7, log entry 2). -/
def cellValue (m : Memory) (a : Nat) : Byte := (Memory.find m a).getD (Config.bufAtPowerOn a)

/-- `MemRead(a, 1)` (20_memory.md R71): requires `0 <= a < QCAP`. -/
def memRead (p : Params) (a : Nat) (m : Memory) : Except Fault Byte :=
  if a < p.qcap then .ok (cellValue m a) else .error .bufIndexOutOfRange

/-- `MemWrite(a, 1, v)` (20_memory.md R71): requires `0 <= a < QCAP`, changes no other cell. -/
def memWrite (p : Params) (a : Nat) (v : Byte) (m : Memory) : Except Fault Memory :=
  if a < p.qcap then .ok (Memory.store m a v) else .error .bufIndexOutOfRange

/-! ### The queue -/

/-- A cursor advanced "modulo capacity" (10_state.md R36). -/
def advance (p : Params) (c : Nat) : Nat := (c + 1) % p.qcap

/-- "logically empty" (10_state.md R37). -/
def Queue.isEmpty (q : Queue) : Bool := decide (q.wr = q.rd) && !q.full

/-- The number of queued bytes, `QCAP if full else (wr - rd) mod QCAP` (10_state.md R38, 44 R223). -/
def Queue.count (p : Params) (q : Queue) : Nat :=
  if q.full then p.qcap else (((q.wr : Int) - (q.rd : Int)) % (p.qcap : Int)).toNat

/-- The queued bytes, oldest first: `buf[rd], buf[(rd+1) mod QCAP], ...` (10_state.md R38 (iv)). -/
def Queue.contents (p : Params) (q : Queue) : List Byte :=
  (List.range (Queue.count p q)).map (fun k => cellValue q.buf ((q.rd + k) % p.qcap))

/-- PUSH's arm for a queue that is not full (44 R220): store, advance `wr`, set `full` if it now equals `rd`. -/
def Queue.insert (p : Params) (b : Byte) (q : Queue) : Except Fault Queue :=
  match memWrite p q.wr b q.buf with
  | .ok m => .ok { q with buf := m, wr := advance p q.wr, full := q.full || decide (advance p q.wr = q.rd) }
  | .error f => .error f

/-- POP's arm for a queue that is not empty (44 R221): the byte at `rd`, then `rd` advanced and `full` cleared. -/
def Queue.remove (p : Params) (q : Queue) : Except Fault (Byte × Queue) :=
  match memRead p q.rd q.buf with
  | .ok b => .ok (b, { q with rd := advance p q.rd, full := false })
  | .error f => .error f

/-- `inc(buffer_overflows)` (44 R220). -/
def countOverflow (s : State) : State :=
  { s with cstat := { s.cstat with bufferOverflows := inc s.params.statw s.cstat.bufferOverflows } }

/-- PUSH as PUSH and SAMPLE run it (44 R220): the state after it and `accepted`. -/
def pushStep (b : Byte) (s : State) : Except Fault (State × Bool) :=
  if s.queue.full then .ok (countOverflow s, false)
  else
    match Queue.insert s.params b s.queue with
    | .ok q => .ok ({ s with queue := q }, true)
    | .error f => .error f

/-- POP as POP and DRAIN run it (44 R221): the state after it and the byte, `none` if the queue was empty. -/
def popStep (s : State) : Except Fault (State × Option Byte) :=
  if Queue.isEmpty s.queue then .ok (s, none)
  else
    match Queue.remove s.params s.queue with
    | .ok (b, q) => .ok ({ s with queue := q }, some b)
    | .error f => .error f

/-! ### DRAIN -/

/-- The running agent's DRAIN in progress becomes `d`. -/
def setDrain (d : Option Drain) (s : State) : State :=
  setCtx s.running { ctxOf s s.running with drain := d } s

/-- Where a DRAIN puts a byte it took (10_state.md R55): into the agent's staging buffer, or, for the DRAIN of a
SERVICE, nowhere but its own record, from which the byte is fed (44 R229). -/
def stageUnless (thenFeed : Bool) (b : Byte) (s : State) : State := if thenFeed then s else stage b s

/-- The end of a DRAIN (44 R222): its bytes are returned, and if it is the DRAIN of a SERVICE the agent's next
requests are the PBYTE of each of them, in order (44 R229). -/
def finishDrain (got : List Byte) (thenFeed : Bool) (s : State) : State :=
  let t := giveResult (.drained got) (setDrain none s)
  if thenFeed then
    setCtx t.running
      { ctxOf t t.running with
          requests := got.map .byte ++ (ctxOf t t.running).requests } t
  else t

/-- One iteration of DRAIN's loop (44 R222), which is one atomic POP (20_memory.md R82): the DRAIN ends when it
has all its bytes or the POP finds the queue empty, and is otherwise left in progress. -/
def drainStep (d : Drain) (s : State) : Except Fault State :=
  match d.remaining with
  | 0 => .ok (finishDrain d.got d.thenFeed s)
  | left + 1 =>
    match popStep s with
    | .error f => .error f
    | .ok (t, none) => .ok (finishDrain d.got d.thenFeed t)
    | .ok (t, some b) =>
        let u := stageUnless d.thenFeed b t
        if left = 0 then .ok (finishDrain (d.got ++ [b]) d.thenFeed u)
        else .ok (setDrain (some { remaining := left, got := d.got ++ [b], thenFeed := d.thenFeed }) u)

/-- The outcome of an operation that can only fail as the queue memory fails. -/
def outcome (r : Except Fault State) : Host.Outcome State Fault Refusal :=
  match r with
  | .ok s => .next s
  | .error f => .fault f

/-! ### Free values -/

/-- A reading of `now()` (00_scope.md R16): a free `TIMEW`-bit value. -/
def readNow (s : State) : Nat := cut s.params.timew (Config.now s.draws)

/-- The value a SAMPLE leaves in `avg_service_time` (44 R227): a free `TIMEW`-bit value. -/
def readAvgServiceTime (s : State) : Nat := cut s.params.timew (Config.avgServiceTime s.draws)

/-- One more free value has been taken. -/
def drawn (s : State) : State := { s with draws := s.draws + 1 }

/-- The end of every PBYTE step (40 R140): nothing under `ERRCNT_POLICY = frozen`; under `free` each of the three
error counters takes a free value not below its old one (10_state.md R42). -/
def applyErrorPolicy (s : State) : State :=
  match s.params.errcntPolicy with
  | .frozen => s
  | .free =>
      { s with
        dstat :=
          { s.dstat with
            timingErrors := notBelow s.params.statw s.dstat.timingErrors (Config.errorRise s.draws)
            syncErrors := notBelow s.params.statw s.dstat.syncErrors (Config.errorRise (s.draws + 1))
            dataErrors := notBelow s.params.statw s.dstat.dataErrors (Config.errorRise (s.draws + 2)) }
        draws := s.draws + 3 }

end Sys2Proof.Machine
end

