-- ==== Sys2Proof/Machine/Operands.lean ====
section
/-! DEFINITION. The operand forms that name a place in the state: a register number (10_state.md R50) and an
event kind (10_state.md R46). -/

namespace Sys2Proof.Machine

open Sys2Proof

/-- `x[i]`, the register map of 10_state.md R50; 7, 14 and 15 are unassigned and read 0 (45 R254). -/
def readRegister (i : BitVec 4) (s : State) : Nat :=
  match i.toNat with
  | 0 => s.dstat.framesReceived
  | 1 => s.dstat.linesReceived
  | 2 => s.dstat.pixelsReceived
  | 3 => s.dstat.timingErrors
  | 4 => s.dstat.syncErrors
  | 5 => s.dstat.dataErrors
  | 6 => s.dstat.lastFrameTime
  | 8 => s.cstat.interruptsHandled
  | 9 => s.cstat.bytesCaptured
  | 10 => s.cstat.bufferOverflows
  | 11 => s.cstat.missedSamples
  | 12 => s.cstat.avgServiceTime
  | 13 => s.cstat.lastServiceTime
  | _ => 0

/-- The observer bit of an event kind (10_state.md R46). -/
def getObs (k : ObsKind) (o : Observers) : Bool :=
  match k with
  | .pixel => o.pixel
  | .rgb => o.rgb
  | .line => o.line
  | .frame => o.frame

/-- The observer bits with one kind's bit set to `v` (45 R253). -/
def setObs (k : ObsKind) (v : Bool) (o : Observers) : Observers :=
  match k with
  | .pixel => { o with pixel := v }
  | .rgb => { o with rgb := v }
  | .line => { o with line := v }
  | .frame => { o with frame := v }

/-- A value on the `result` port (00_scope.md R13): the bits of `v`, zero-extended. -/
def toPort {n : Nat} (v : BitVec n) : Result := .port v.toNat

end Sys2Proof.Machine
end

