-- ==== Sys2Proof/Machine/Color.lean ====
section
/-! DEFINITION. The color converter (spec/43_color_converter.md): three stateless functions, and the three
operations that show their results on the `result` port. -/

namespace Sys2Proof.Machine

open Sys2Proof

/-- An RGB sample, three 8-bit components (00_scope.md R10). -/
structure RgbSample where
  r : Byte
  g : Byte
  b : Byte
deriving DecidableEq, Repr

/-- `clamp255` (00_scope.md R14). -/
def clamp255 (n : Int) : Byte :=
  if n < 0 then 0#8 else if n > 255 then 255#8 else BitVec.ofNat 8 n.toNat

/-- One channel from its exact sum in thousandths: the fraction is dropped toward zero, then clamped (43 R201, R202). -/
def channel (thousandths : Int) : Byte := clamp255 (Int.tdiv thousandths 1000)

/-- `y - 16` (43 R201). -/
def lumaTerm (y : Byte) : Int := (y.toNat : Int) - 16

/-- `cb - 128`, `cr - 128` (43 R201). -/
def chromaTerm (c : Byte) : Int := (c.toNat : Int) - 128

/-- YCC2RGB as a function (43 R201): the printed coefficients taken exactly, luma with gain 1 (R202, C4). -/
def ycc2rgb (y cb cr : Byte) : RgbSample :=
  { r := channel (1000 * lumaTerm y + 1402 * chromaTerm cr)
    g := channel (1000 * lumaTerm y - 344 * chromaTerm cb - 714 * chromaTerm cr)
    b := channel (1000 * lumaTerm y + 1772 * chromaTerm cb) }

/-- RGB2565 as a function (43 R203, 30_encoding.md R105): the top 5, 6, 5 bits, red in `w[15:11]`. -/
def rgb565 (r g b : Byte) : BitVec 16 :=
  cat 16 (r.extractLsb' 3 5) (cat 11 (g.extractLsb' 2 6) (b.extractLsb' 3 5))

/-- YCC2GRAY as a function (43 R204): "luma unchanged". -/
def gray (y _cb _cr : Byte) : Byte := y

/-- The 24 bits YCC2RGB shows: `result[23:16] = r`, `[15:8] = g`, `[7:0] = b` (30_encoding.md R120). -/
def rgbWord (c : RgbSample) : BitVec 24 := cat 24 c.r (cat 16 c.g c.b)

/-- YCC2RGB `y, cb, cr` (43 R201): no state, only a result (R200). -/
def execYcc2rgb (y cb cr : Byte) (s : State) : Host.Outcome State Fault Refusal :=
  .next (giveResult (toPort (rgbWord (ycc2rgb y cb cr))) s)

/-- RGB2565 `r, g, b` (43 R203). -/
def execRgb2565 (r g b : Byte) (s : State) : Host.Outcome State Fault Refusal :=
  .next (giveResult (toPort (rgb565 r g b)) s)

/-- YCC2GRAY `y, cb, cr` (43 R204): `cb` and `cr` are ignored. -/
def execYcc2gray (y cb cr : Byte) (s : State) : Host.Outcome State Fault Refusal :=
  .next (giveResult (toPort (gray y cb cr)) s)

end Sys2Proof.Machine
end

