-- ==== Sys2Proof/Machine/Demux.lean ====
section
/-! DEFINITION. The pixel demultiplexer (spec/42_pixel_demux.md) and the five DATA rows, the second-level reading
of a data byte.  A DATA row is the part of a PBYTE step that handles the byte as video data; `step` runs it inside
the STREAM row that offers the byte, never alone (log entry 13). -/

namespace Sys2Proof.Machine

open Sys2Proof

/-- Phase Y1 (42 R182). -/
def demuxY1 (b : Byte) (s : State) : State :=
  { s with dec := { s.dec with curY := b, phase := .cb } }

/-- Phase CB (42 R183). -/
def demuxCb (b : Byte) (s : State) : State :=
  { s with dec := { s.dec with curCb := b, phase := .y2 } }

/-- Phase Y2 (42 R184): "overwrites the first luma slot". -/
def demuxY2 (b : Byte) (s : State) : State :=
  { s with dec := { s.dec with curY := b, phase := .cr } }

/-- `cur_cr <- b` (42 R185). -/
def storeCr (b : Byte) (s : State) : State := { s with dec := { s.dec with curCr := b } }

/-- The `Pixel` event of the sample held (42 R185, 30_encoding.md R106). -/
def pixelEvent (d : Decoder) : Event := .pixel d.curY d.curCb d.curCr d.pixelCount d.lineCount

/-- The `Rgb` event of the sample held (42 R185, 30_encoding.md R106). -/
def rgbEvent (d : Decoder) : Event :=
  .rgb (ycc2rgb d.curY d.curCb d.curCr).r (ycc2rgb d.curY d.curCb d.curCr).g
    (ycc2rgb d.curY d.curCb d.curCr).b d.pixelCount d.lineCount

/-- The dispatch of the sample held: `Pixel`, then `Rgb` if enabled (42 R185). -/
def dispatchSample (s : State) : State :=
  emit s.dec.obs.rgb (rgbEvent s.dec) (emit s.dec.obs.pixel (pixelEvent s.dec) s)

/-- The end of a sample group (42 R185): both counters, and the phase back to Y1. -/
def endGroup (s : State) : State :=
  { s with
    dec := { s.dec with pixelCount := inc s.params.xyw s.dec.pixelCount, phase := .y1 }
    dstat := { s.dstat with pixelsReceived := inc s.params.statw s.dstat.pixelsReceived } }

/-- Phase CR (42 R185). -/
def demuxCr (b : Byte) (s : State) : State := endGroup (dispatchSample (storeCr b s))

/-- DEMUX (42 R180). -/
def demux (b : Byte) (s : State) : State :=
  match s.dec.phase with
  | .y1 => demuxY1 b s
  | .cb => demuxCb b s
  | .y2 => demuxY2 b s
  | .cr => demuxCr b s

/-- A byte outside the active region: "discarded without error", no state changes (42 R189). -/
def discardByte (_b : Byte) (s : State) : State := s

/-- DATA (40 R140): the byte goes to the demultiplexer if `active = 1` and is discarded otherwise. -/
def offerData (b : Byte) (s : State) : State :=
  if s.dec.active then demux b s else discardByte b s

/-- DATA.Y1 (42 R182). -/
def execDataY1 (b : Byte) (s : State) : Host.Outcome State Fault Refusal := .next (demuxY1 b s)

/-- DATA.CB (42 R183). -/
def execDataCb (b : Byte) (s : State) : Host.Outcome State Fault Refusal := .next (demuxCb b s)

/-- DATA.Y2 (42 R184). -/
def execDataY2 (b : Byte) (s : State) : Host.Outcome State Fault Refusal := .next (demuxY2 b s)

/-- DATA.CR (42 R185). -/
def execDataCr (b : Byte) (s : State) : Host.Outcome State Fault Refusal := .next (demuxCr b s)

/-- DATA.DISCARD (42 R189). -/
def execDataDiscard (b : Byte) (s : State) : Host.Outcome State Fault Refusal := .next (discardByte b s)

end Sys2Proof.Machine
end

