-- ==== Sys2Proof/Machine/Flags.lean ====
section
/-! DEFINITION. The sync flags: procedure SYNC of spec/41_sync_flags.md with its four parts. -/

namespace Sys2Proof.Machine

open Sys2Proof

/-- `rise(new, old)` (00_scope.md R14). -/
def rise (new old : Bool) : Bool := new && !old

/-- VSYNC_RISE (41 R165): mark, clear both counters, count the frame, stamp it, emit `Frame()`. -/
def vsyncRise (s : State) : State :=
  emit s.dec.obs.frame .frame
    (drawn
      { s with
        dec := { s.dec with frameStarted := true, lineCount := 0, pixelCount := 0 }
        dstat :=
          { s.dstat with
            framesReceived := inc s.params.statw s.dstat.framesReceived
            lastFrameTime := readNow s } })

/-- `inc(line_count)` (41 R166). -/
def bumpLine (s : State) : State :=
  { s with dec := { s.dec with lineCount := inc s.params.xyw s.dec.lineCount } }

/-- HSYNC_RISE (41 R166): mark, clear the pixel counter, count the line, emit `Line` with the number before the
increment, then increment it. -/
def hsyncRise (s : State) : State :=
  bumpLine
    (emit s.dec.obs.line (.line s.dec.lineCount)
      { s with
        dec := { s.dec with lineStarted := true, pixelCount := 0 }
        dstat := { s.dstat with linesReceived := inc s.params.statw s.dstat.linesReceived } })

/-- SAV_TRUE (41 R167): open the active region at phase Y1 and pixel 0. -/
def savTrue (s : State) : State :=
  { s with dec := { s.dec with active := true, phase := .y1, pixelCount := 0 } }

/-- SAV_FALSE (41 R168): leave the active region. -/
def savFalse (s : State) : State := { s with dec := { s.dec with active := false } }

/-- The vsync check (41 R160, R163). -/
def vsyncCheck (new : SyncFlags) (s : State) : State :=
  if rise new.vsync s.dec.lastFlags.vsync then vsyncRise s else s

/-- The hsync check (41 R160, R163). -/
def hsyncCheck (new : SyncFlags) (s : State) : State :=
  if rise new.hsync s.dec.lastFlags.hsync then hsyncRise s else s

/-- The sav/eav check (41 R160, R163): a level, not an edge. -/
def savCheck (new : SyncFlags) (s : State) : State :=
  if new.sav then savTrue s else savFalse s

/-- `last_flags <- new` (41 R169). -/
def storeFlags (new : SyncFlags) (s : State) : State :=
  { s with dec := { s.dec with lastFlags := new } }

/-- SYNC (41 R160): the three checks "in the fixed order (vsync check, then hsync check, then sav/eav check)",
then the flags are stored. -/
def syncControl (new : SyncFlags) (s : State) : State :=
  storeFlags new (savCheck new (hsyncCheck new (vsyncCheck new s)))

end Sys2Proof.Machine
end

