-- ==== Sys2Proof/Machine/Stream.lean ====
section
/-! DEFINITION. The timing-reference detector (spec/40_timing_reference_detector.md): the arm of each STREAM row,
PBYTE, and their meanings.  A STREAM row's meaning is its arm of the PBYTE step; decoding a byte by the detector's
state picks the row, so `step` runs a row only in its own context (log entry 12). -/

namespace Sys2Proof.Machine

open Sys2Proof

/-- `fsm <- f`. -/
def setFsm (f : Fsm) (s : State) : State := { s with dec := { s.dec with fsm := f } }

/-- IDLE.FF (40 R141): a marker candidate, which is also data. -/
def armIdleFf (s : State) : State := offerData 0xFF#8 (setFsm .ff s)

/-- IDLE.ANY (40 R141). -/
def armIdleAny (b : Byte) (s : State) : State := offerData b (setFsm .idle s)

/-- FF.00 (40 R142). -/
def armFfZero (s : State) : State := offerData 0x00#8 (setFsm .ff00 s)

/-- FF.ANY (40 R142): a broken marker, "resync, no error recorded". -/
def armFfAny (b : Byte) (s : State) : State := offerData b (setFsm .idle s)

/-- FF00.00 (40 R143): "marker complete"; the byte is data only if `DEMUX_MARKER3`. -/
def armFf00Zero (s : State) : State :=
  if s.params.demuxMarker3 then offerData 0x00#8 (setFsm .ff0000 s) else setFsm .ff0000 s

/-- FF00.ANY (40 R143): a broken marker. -/
def armFf00Any (b : Byte) (s : State) : State := offerData b (setFsm .idle s)

/-- XY (40 R144): the control byte, parsed in the step in which it arrives. -/
def armXy (f : SyncFlags) (s : State) : State :=
  setFsm .idle (syncControl f (setFsm .controlByte s))

/-- XY.LATE (40 R145): a byte that finds the detector in CONTROL_BYTE is the control byte. -/
def armXyLate (f : SyncFlags) (s : State) : State := setFsm .idle (syncControl f s)

/-- UNDEF.ANY (40 R146): the defensive reset; the byte is ordinary data. -/
def armUndefAny (b : Byte) (s : State) : State := offerData b (setFsm .idle s)

/-- The detector's arm for a byte, by the state it arrives in (40 R140 to R146). -/
def detect (b : Byte) (s : State) : State :=
  match s.dec.fsm with
  | .idle => if b = 0xFF#8 then armIdleFf s else armIdleAny b s
  | .ff => if b = 0x00#8 then armFfZero s else armFfAny b s
  | .ff00 => if b = 0x00#8 then armFf00Zero s else armFf00Any b s
  | .ff0000 => armXy (controlFlags b) s
  | .controlByte => armXyLate (controlFlags b) s
  | .undef5 | .undef6 | .undef7 => armUndefAny b s

/-- One PBYTE step (40 R140): the arm, then the error-counter policy. -/
def feedByte (b : Byte) (s : State) : State := applyErrorPolicy (detect b s)

/-- PBYTE of each byte in turn (20_memory.md R79, 30_encoding.md R126 FEED). -/
def feedBytes (bs : List Byte) (s : State) : State :=
  match bs with
  | [] => s
  | b :: rest => feedBytes rest (feedByte b s)

/-- PBYTE `b` (40 R140). -/
def execPbyte (b : Byte) (s : State) : Host.Outcome State Fault Refusal := .next (feedByte b s)

/-- The PBYTE step of a byte of class IDLE.FF (40 R141). -/
def execIdleFf (s : State) : Host.Outcome State Fault Refusal := .next (applyErrorPolicy (armIdleFf s))

/-- The PBYTE step of a byte of class IDLE.ANY (40 R141). -/
def execIdleAny (b : Byte) (s : State) : Host.Outcome State Fault Refusal :=
  .next (applyErrorPolicy (armIdleAny b s))

/-- The PBYTE step of a byte of class FF.00 (40 R142). -/
def execFfZero (s : State) : Host.Outcome State Fault Refusal := .next (applyErrorPolicy (armFfZero s))

/-- The PBYTE step of a byte of class FF.ANY (40 R142). -/
def execFfAny (b : Byte) (s : State) : Host.Outcome State Fault Refusal :=
  .next (applyErrorPolicy (armFfAny b s))

/-- The PBYTE step of a byte of class FF00.00 (40 R143). -/
def execFf00Zero (s : State) : Host.Outcome State Fault Refusal := .next (applyErrorPolicy (armFf00Zero s))

/-- The PBYTE step of a byte of class FF00.ANY (40 R143). -/
def execFf00Any (b : Byte) (s : State) : Host.Outcome State Fault Refusal :=
  .next (applyErrorPolicy (armFf00Any b s))

/-- The PBYTE step of a control byte with flags `f` (40 R144). -/
def execXy (f : SyncFlags) (s : State) : Host.Outcome State Fault Refusal :=
  .next (applyErrorPolicy (armXy f s))

/-- The PBYTE step of a byte that finds CONTROL_BYTE (40 R145). -/
def execXyLate (f : SyncFlags) (s : State) : Host.Outcome State Fault Refusal :=
  .next (applyErrorPolicy (armXyLate f s))

/-- The PBYTE step of a byte that finds an undefined state (40 R146). -/
def execUndefAny (b : Byte) (s : State) : Host.Outcome State Fault Refusal :=
  .next (applyErrorPolicy (armUndefAny b s))

end Sys2Proof.Machine
end

