-- ==== Sys2Proof/Machine/Capture.lean ====
section
/-! DEFINITION. The capture stage (spec/44_capture_queue.md): PUSH, POP, DRAIN, AVAIL and SAMPLE. -/

namespace Sys2Proof.Machine

open Sys2Proof

/-- PUSH `b` (44 R220). -/
def execPush (b : Byte) (s : State) : Host.Outcome State Fault Refusal :=
  match pushStep b s with
  | .ok (t, accepted) => .next (giveResult (.pushAccepted accepted) t)
  | .error f => .fault f

/-- POP (44 R221); the byte joins the staging buffer of the agent that popped it (10_state.md R55). -/
def execPop (s : State) : Host.Outcome State Fault Refusal :=
  match popStep s with
  | .ok (t, none) => .next (giveResult (.popped none) t)
  | .ok (t, some b) => .next (giveResult (.popped (some b)) (stage b t))
  | .error f => .fault f

/-- DRAIN `n` (44 R222): its first iteration.  The further POPs are the agent's next steps, between which other
agents may step (20_memory.md R82, log entry 6). -/
def execDrain (n : Nat) (s : State) : Host.Outcome State Fault Refusal :=
  outcome (drainStep { remaining := n, got := [], thenFeed := false } s)

/-- AVAIL (44 R223). -/
def execAvail (s : State) : Host.Outcome State Fault Refusal :=
  .next (giveResult (.available (Queue.count s.params s.queue)) s)

/-- `inc(interrupts_handled)` (44 R226). -/
def countInterrupt (s : State) : State :=
  { s with cstat := { s.cstat with interruptsHandled := inc s.params.statw s.cstat.interruptsHandled } }

/-- `inc(bytes_captured)` (44 R226). -/
def countCaptured (s : State) : State :=
  { s with cstat := { s.cstat with bytesCaptured := inc s.params.statw s.cstat.bytesCaptured } }

/-- The service-time fields at the end of a SAMPLE (44 R227): a reading of `now()` and a free value. -/
def stampService (s : State) : State :=
  drawn
    { s with
      cstat := { s.cstat with lastServiceTime := readNow s, avgServiceTime := readAvgServiceTime s } }

/-- The buffered-mode arm of SAMPLE (44 R226). -/
def sampleBuffered (b : Byte) (s : State) : Except Fault State :=
  match pushStep b s with
  | .ok (t, accepted) => .ok (if accepted then countCaptured t else t)
  | .error f => .error f

/-- SAMPLE `b` (44 R226): the producer's whole step for one clock edge. -/
def execSample (b : Byte) (s : State) : Host.Outcome State Fault Refusal :=
  match s.params.mode with
  | .buffered =>
    match sampleBuffered b (countInterrupt s) with
    | .ok t => .next (stampService t)
    | .error f => .fault f
  | .direct => .next (stampService (feedByte b (countCaptured (countInterrupt s))))

end Sys2Proof.Machine
end

