-- ==== Sys2Proof/Machine/Agents.lean ====
section
/-! DEFINITION. How an agent's step comes about: whose turn it is, what that agent does next, and the decoding of
the word or byte it gives the core.  The agents and the order of their steps are outside the core
(00_scope.md R7, R8, 44 R228, log entry 4). -/

namespace Sys2Proof.Machine

open Sys2Proof

/-- What the next step is: an instruction for the core, run from the given state, or a step whose outcome is
already known (no agent moves, a DRAIN goes on, an agent handles its own buffer). -/
inductive Fetched where
  | instr (i : Instr) (s : State)
  | done (o : Host.Outcome State Fault Refusal)

/-- The running agent starts its next request.  A command word is decoded by 30_encoding.md R120, a byte by the
detector's state (R109), the port `drain_max` has `MAXW` bits (00_scope.md R13), a clock edge is one SAMPLE
(44 R226), and a fed byte is the oldest of the staging buffer
(44 R228: "skipping none and inserting none"). -/
def startRequest (r : Request) (s : State) : Fetched :=
  match r with
  | .command w => .instr (decodeCommand s.params.drainBits w) s
  | .byte b => .instr (decodeStream s.dec.fsm b) s
  | .drainMax n => .instr (.drain (n % 2 ^ s.params.maxw)) s
  | .edge b => .instr (.sample b) s
  | .feed =>
    match (ctxOf s s.running).staging with
    | [] => .done (.next s)
    | b :: rest => .instr (.pbyte b) (setCtx s.running { ctxOf s s.running with staging := rest } s)
  | .service n => .done (outcome (drainStep { remaining := n, got := [], thenFeed := true } s))
  | .discard => .done (.next (setCtx s.running { ctxOf s s.running with staging := [] } s))

/-- The running agent's step: a DRAIN in progress goes on (20_memory.md R82); otherwise the oldest request is
taken; an agent with none takes a step that does nothing. -/
def agentStep (s : State) : Fetched :=
  match (ctxOf s s.running).drain with
  | some d => .done (outcome (drainStep d s))
  | none =>
    match (ctxOf s s.running).requests with
    | [] => .done (.next s)
    | r :: rest => startRequest r (setCtx s.running { ctxOf s s.running with requests := rest } s)

/-- The next step of the machine: the agent whose turn it is.  With no turn left no agent steps, and the machine
stays as it is (00_scope.md R18, 60 R300). -/
def fetch (s : State) : Fetched :=
  match s.turns with
  | [] => .done (.next s)
  | a :: rest => agentStep { s with turns := rest, running := a }

/-- The agent that issues an instruction in buffered mode (60 R296).  For the color functions R296 says anyone, and
for the select codes 0xE and 0xF it says nothing; the host is the model's choice (DESIGN CHOICE, log entry 5). -/
def issuer : Instr → Agent
  | .sample _ | .push _ => .producer
  | .pop | .drain _ | .avail | .pbyte _ => .consumer
  | .idleFf | .idleAny _ | .ffZero | .ffAny _ | .ff00Zero | .ff00Any _ | .xy _ | .xyLate _
  | .undefAny _ | .dataY1 _ | .dataCb _ | .dataY2 _ | .dataCr _ | .dataDiscard _ => .consumer
  | .reset | .setobs _ _ | .dstatrst | .cstatrst | .rdstat _ => .host
  | .ycc2rgb _ _ _ | .rgb2565 _ _ _ | .ycc2gray _ _ _ | .unassignedE | .unassignedF => .host

/-- The request that gives the core a word. -/
def requestOf : InstrWord → Request
  | .command w => .command w
  | .byte b => .byte b

/-- The agent a word is issued by. -/
def issuerOfWord (s : State) : InstrWord → Agent
  | .command w => issuer (decodeCommand s.params.drainBits w)
  | .byte b => issuer (decodeStream s.dec.fsm b)

/-- The state in which the word `w` is what the very next step runs: its issuer's turn comes next, no DRAIN of
that agent stands before it, and the word is the agent's oldest request (log entry 5). -/
def placeWord (w : InstrWord) (s : State) : State :=
  let a := issuerOfWord s w
  setCtx a { ctxOf s a with requests := requestOf w :: (ctxOf s a).requests, drain := none }
    { s with turns := a :: s.turns }

end Sys2Proof.Machine
end

