-- ==== Sys2Proof/Machine/Control.lean ====
section
/-! DEFINITION. The control operations (spec/45_control_ops.md) and the two unassigned select codes. -/

namespace Sys2Proof.Machine

open Sys2Proof

/-- What RESET does to the Decoder Context (45 R250): `cur_*` and the `obs` bits are kept. -/
def resetDecoder (d : Decoder) : Decoder :=
  { d with
    fsm := .idle, active := false, phase := .y1, lineCount := 0, pixelCount := 0,
    lastFlags := { field := false, vsync := false, hsync := false, sav := false },
    frameStarted := false, lineStarted := false }

/-- RESET (45 R250). -/
def execReset (s : State) : Host.Outcome State Fault Refusal :=
  .next { s with dec := resetDecoder s.dec }

/-- DSTATRST (45 R251). -/
def execDstatrst (s : State) : Host.Outcome State Fault Refusal :=
  .next
    { s with
      dstat :=
        { framesReceived := 0, linesReceived := 0, pixelsReceived := 0,
          timingErrors := 0, syncErrors := 0, dataErrors := 0, lastFrameTime := 0 } }

/-- CSTATRST (45 R252). -/
def execCstatrst (s : State) : Host.Outcome State Fault Refusal :=
  .next
    { s with
      cstat :=
        { interruptsHandled := 0, bytesCaptured := 0, bufferOverflows := 0,
          missedSamples := 0, avgServiceTime := 0, lastServiceTime := 0 } }

/-- SETOBS `k, v` (45 R253). -/
def execSetobs (k : ObsKind) (v : Bool) (s : State) : Host.Outcome State Fault Refusal :=
  .next { s with dec := { s.dec with obs := setObs k v s.dec.obs } }

/-- RDSTAT `i` (45 R254): a value copy, no state read out changes. -/
def execRdstat (i : BitVec 4) (s : State) : Host.Outcome State Fault Refusal :=
  .next (giveResult (.port (readRegister i s)) s)

/-- Select code 0xE (30_encoding.md R122): a no-operation. -/
def execUnassignedE (s : State) : Host.Outcome State Fault Refusal := .next s

/-- Select code 0xF (30_encoding.md R122): a no-operation. -/
def execUnassignedF (s : State) : Host.Outcome State Fault Refusal := .next s

end Sys2Proof.Machine
end

