-- ==== Sys2Proof/Machine/Dispatch.lean ====
section
/-! DEFINITION. One arm per instruction, each one call of its meaning. -/

namespace Sys2Proof.Machine

open Sys2Proof

def exec (i : Instr) (s : State) : Host.Outcome State Fault Refusal :=
  match i with
  | .pbyte b => Sys2Proof.Machine.execPbyte b s
  | .reset => Sys2Proof.Machine.execReset s
  | .setobs k v => Sys2Proof.Machine.execSetobs k v s
  | .rdstat r => Sys2Proof.Machine.execRdstat r s
  | .push b => Sys2Proof.Machine.execPush b s
  | .drain n => Sys2Proof.Machine.execDrain n s
  | .avail => Sys2Proof.Machine.execAvail s
  | .pop => Sys2Proof.Machine.execPop s
  | .sample b => Sys2Proof.Machine.execSample b s
  | .dstatrst => Sys2Proof.Machine.execDstatrst s
  | .cstatrst => Sys2Proof.Machine.execCstatrst s
  | .ycc2rgb y cb cr => Sys2Proof.Machine.execYcc2rgb y cb cr s
  | .rgb2565 r g b => Sys2Proof.Machine.execRgb2565 r g b s
  | .ycc2gray y cb cr => Sys2Proof.Machine.execYcc2gray y cb cr s
  | .unassignedE => Sys2Proof.Machine.execUnassignedE s
  | .unassignedF => Sys2Proof.Machine.execUnassignedF s
  | .idleFf => Sys2Proof.Machine.execIdleFf s
  | .idleAny b => Sys2Proof.Machine.execIdleAny b s
  | .ffZero => Sys2Proof.Machine.execFfZero s
  | .ffAny b => Sys2Proof.Machine.execFfAny b s
  | .ff00Zero => Sys2Proof.Machine.execFf00Zero s
  | .ff00Any b => Sys2Proof.Machine.execFf00Any b s
  | .xy f => Sys2Proof.Machine.execXy f s
  | .xyLate f => Sys2Proof.Machine.execXyLate f s
  | .undefAny b => Sys2Proof.Machine.execUndefAny b s
  | .dataY1 b => Sys2Proof.Machine.execDataY1 b s
  | .dataCb b => Sys2Proof.Machine.execDataCb b s
  | .dataY2 b => Sys2Proof.Machine.execDataY2 b s
  | .dataCr b => Sys2Proof.Machine.execDataCr b s
  | .dataDiscard b => Sys2Proof.Machine.execDataDiscard b s

end Sys2Proof.Machine
end

