-- ==== Sys2Proof/Machine/Step.lean ====
section
/-! DEFINITION. One step of the machine. -/

namespace Sys2Proof.Machine

open Sys2Proof

/-- One atomic step of the agent whose turn it is (00_scope.md R8). -/
def step (s : State) : Host.Outcome State Fault Refusal :=
  match fetch s with
  | .instr i t => exec i t
  | .done o => o

/-- The state in which the instruction with the given bits is the very next one to run; a number that is no word
of the table leaves the state as it is. -/
def State.withFetchWord (s : State) (nbits w : Nat) : State :=
  match InstrWord.ofBits nbits w with
  | .ok word => placeWord word s
  | .error _ => s

end Sys2Proof.Machine
end

