-- ==== Sys2Proof/Machine/Trace.lean ====
section
/-! DEFINITION. Operation traces and the pseudo-operations of spec/30_encoding.md R125 and R126, and the runs of
spec/00_scope.md R18.  SERVICE is not here: its second half depends on the bytes drained, so it is the consumer's
behaviour (`Request.service`). -/

namespace Sys2Proof.Machine

open Sys2Proof

/-- The pseudo-operations with a fixed expansion (30_encoding.md R126). -/
inductive Pseudo where
  | feed (bs : List Byte)
  | trs (c : Byte)
  | group (y1 cb y2 cr : Byte)
  | capture (bs : List Byte)
  | rddstat
  | rdcstat
deriving DecidableEq, Repr

/-- The expansion column of 30_encoding.md R126 (RDDSTAT and RDCSTAT: 45 R255). -/
def expand : Pseudo → List Instr
  | .feed bs => bs.map .pbyte
  | .trs c => [.pbyte 0xFF#8, .pbyte 0x00#8, .pbyte 0x00#8, .pbyte c]
  | .group y1 cb y2 cr => [.pbyte y1, .pbyte cb, .pbyte y2, .pbyte cr]
  | .capture bs => bs.map .sample
  | .rddstat => [.rdstat 0#4, .rdstat 1#4, .rdstat 2#4, .rdstat 3#4, .rdstat 4#4, .rdstat 5#4, .rdstat 6#4]
  | .rdcstat => [.rdstat 8#4, .rdstat 9#4, .rdstat 10#4, .rdstat 11#4, .rdstat 12#4, .rdstat 13#4]

/-- An operation trace with no other agent's step between its operations (30_encoding.md R125). -/
def execAll (is : List Instr) (s : State) : Host.Outcome State Fault Refusal :=
  match is with
  | [] => .next s
  | i :: rest =>
    match exec i s with
    | .next t => execAll rest t
    | .fault f => .fault f
    | .refused r => .refused r

/-! ### Runs -/

/-- One move of the environment: the agent that takes the next step, and the operation it is given to issue after
those it has, if any (00_scope.md R7, R8). -/
structure Move where
  agent : Agent
  request : Option Request
deriving DecidableEq, Repr

/-- The state in which a move is the next step. -/
def offer (m : Move) (s : State) : State :=
  setCtx m.agent { ctxOf s m.agent with requests := (ctxOf s m.agent).requests ++ m.request.toList }
    { s with turns := m.agent :: s.turns }

/-- The step of a move. -/
def stepMove (m : Move) (s : State) : Host.Outcome State Fault Refusal := step (offer m s)

/-- A finite interleaving of the agents' steps (00_scope.md R18).  What it shows is the `trace` and the `results` of
its last state. -/
def runMoves (ms : List Move) (s : State) : Host.Outcome State Fault Refusal :=
  match ms with
  | [] => .next s
  | m :: rest =>
    match stepMove m s with
    | .next t => runMoves rest t
    | .fault f => .fault f
    | .refused r => .refused r

/-- `states` is the infinite run of the moves `moves` from power-on (00_scope.md R18).  What it shows is the growing
`trace` and `results` of its states. -/
def isRun (p : Params) (moves : Nat → Move) (states : Nat → State) : Prop :=
  states 0 = State.powerOn p ∧ ∀ k, stepMove (moves k) (states k) = .next (states (k + 1))

end Sys2Proof.Machine
end

