-- ==== Sys2Proof/Safety.lean ====
section
/-! DEFINITION. What claims about runs speak of: the invariant of the core's states, the division of rights among
the agents, and runs without a fault. -/

namespace Sys2Proof.Machine

open Sys2Proof

/-- The states the detector is in between steps (10_state.md R23). -/
def Fsm.between : Fsm → Bool
  | .idle | .ff | .ff00 | .ff0000 => true
  | .controlByte | .undef5 | .undef6 | .undef7 => false

/-- Every counter and time value is a value of its width (00_scope.md R9, 10_state.md R20). -/
def State.countersFit (s : State) : Bool :=
  fits s.params.xyw s.dec.lineCount && fits s.params.xyw s.dec.pixelCount &&
  fits s.params.statw s.dstat.framesReceived && fits s.params.statw s.dstat.linesReceived &&
  fits s.params.statw s.dstat.pixelsReceived && fits s.params.statw s.dstat.timingErrors &&
  fits s.params.statw s.dstat.syncErrors && fits s.params.statw s.dstat.dataErrors &&
  fits s.params.timew s.dstat.lastFrameTime &&
  fits s.params.statw s.cstat.interruptsHandled && fits s.params.statw s.cstat.bytesCaptured &&
  fits s.params.statw s.cstat.bufferOverflows && fits s.params.statw s.cstat.missedSamples &&
  fits s.params.timew s.cstat.avgServiceTime && fits s.params.timew s.cstat.lastServiceTime

/-- The queue invariants of 10_state.md R36 and R38: cursors in range, `full` only with equal cursors, the memory in
canonical form with no cell outside `0 .. QCAP-1`, and every queued cell written. -/
structure Queue.Inv (p : Params) (q : Queue) : Prop where
  wr_lt : q.wr < p.qcap
  rd_lt : q.rd < p.qcap
  full_eq : q.full = true → q.wr = q.rd
  buf_wf : Memory.wf q.buf = true
  buf_range : ∀ c ∈ q.buf, c.1 < p.qcap
  written : ∀ k < Queue.count p q, (Memory.find q.buf ((q.rd + k) % p.qcap)).isSome = true

/-- The invariant of the machine: the queue's invariants, the detector between steps (10_state.md R23), every
counter within its width.  That the parameters are legal (00_scope.md R9) their type says. -/
structure State.Inv (s : State) : Prop where
  queue : Queue.Inv s.params s.queue
  fsm : Fsm.between s.dec.fsm = true
  counters : s.countersFit = true

/-- The rights of 60_exceptions.md R296, by mode and agent.  The core does not check them (R295): they are a
hypothesis on runs (70 R324).  R296 has no row for the select codes 0xE and 0xF; that any agent may issue them, as
it may the color functions, is the model's choice (DESIGN CHOICE, log entry 22). -/
def mayIssue (m : Mode) (a : Agent) : Instr → Bool
  | .sample _ => decide (a = .producer)
  | .push _ => decide (m = .buffered) && decide (a = .producer)
  | .pop | .drain _ | .avail => decide (m = .buffered) && decide (a = .consumer)
  | .pbyte _ | .idleFf | .idleAny _ | .ffZero | .ffAny _ | .ff00Zero | .ff00Any _ | .xy _ | .xyLate _
  | .undefAny _ | .dataY1 _ | .dataCb _ | .dataY2 _ | .dataCr _ | .dataDiscard _ =>
      decide (m = .buffered) && decide (a = .consumer)
  | .reset | .setobs _ _ | .dstatrst | .cstatrst | .rdstat _ => decide (a = .host)
  | .ycc2rgb _ _ _ | .rgb2565 _ _ _ | .ycc2gray _ _ _ | .unassignedE | .unassignedF => true

/-- The step does not stop (60_exceptions.md R280: "Every operation of this spec is total"). -/
def State.goesOn (s : State) : Prop := ∃ t, step s = .next t

/-- `k` steps of the machine, stopping at the first fault or refusal. -/
def runSteps (k : Nat) (s : State) : Host.Outcome State Fault Refusal :=
  match k with
  | 0 => .next s
  | n + 1 =>
    match step s with
    | .next t => runSteps n t
    | .fault f => .fault f
    | .refused r => .refused r

/-- The byte a request puts on `din`. -/
def Request.dinByte : Request → Option Byte
  | .byte b => some b
  | .command _ | .drainMax _ | .edge _ | .feed | .service _ | .discard => none

/-- The bytes an agent has obtained from the queue and the decoder has not seen, oldest first (10_state.md R55):
its staging buffer, what the DRAIN of a SERVICE has got, and the bytes it is about to put on `din`. -/
def AgentCtx.inFlight (c : AgentCtx) : List Byte :=
  c.staging ++ (match c.drain with | some d => if d.thenFeed then d.got else [] | none => []) ++
    c.requests.filterMap Request.dinByte

/-- A consumer that keeps the wiring rule of 44 R228, "in the order obtained, skipping none and inserting none": it
runs SERVICE only, or POP, DRAIN, AVAIL and the feeding of the oldest staged byte, in any order. -/
def keepsOrder (rs : List Request) : Prop :=
  (∀ r ∈ rs, ∃ n, r = .service n) ∨
  (∀ r ∈ rs, r = .feed ∨ r = requestOf (encode .pop) ∨ r = requestOf (encode .avail) ∨
    ∃ n, r = requestOf (encode (.drain n)) ∨ r = .drainMax n)

/-- The Decoder Context without the sample being assembled, which no rule shows before it is written again
(10_state.md R29). -/
def Decoder.framing (d : Decoder) : Decoder := { d with curY := 0#8, curCb := 0#8, curCr := 0#8 }

/-- The Decoder Statistics without the time stamp (44 R230: "except `last_frame_time`"). -/
def DecoderStats.untimed (d : DecoderStats) : DecoderStats := { d with lastFrameTime := 0 }

/-- The marker `FF 00 00` (30_encoding.md R101). -/
def marker : List Byte := [0xFF#8, 0x00#8, 0x00#8]

/-- A sample group in arrival order (30_encoding.md R104). -/
structure Group where
  y1 : Byte
  cb : Byte
  y2 : Byte
  cr : Byte
deriving DecidableEq, Repr

/-- The four bytes of a group, in arrival order. -/
def Group.bytes (g : Group) : List Byte := [g.y1, g.cb, g.y2, g.cr]

/-- The steps of an undisturbed DRAIN `n` on a queue of `count` bytes (44 R222): one POP a step, a last one if the
queue runs empty first, and one step that pops nothing when `n = 0`. -/
def drainSteps (n count : Nat) : Nat := max 1 (min n (count + 1))

end Sys2Proof.Machine
end

