-- ==== Sys2Proof/Certificates/Slice0/Obligations.lean ====
section
/-! DEFINITION. The statements for the provers, each from the rule or section of spec/ its docstring names. -/

open Sys2Proof Sys2Proof.Machine

/-- Power-on leaves every field at its creation value.
70_reset_and_hazards.md R310 (10_state.md R60, column power-on).  `buf` unspecified: no cell has a stored value. -/
def Obligations.PowerOnIsTheCreationState : Prop :=
  ∀ p : Params,
    (State.powerOn p).dec =
      { fsm := .idle, phase := .y1, active := false,
        lastFlags := { field := false, vsync := false, hsync := false, sav := false },
        frameStarted := false, lineStarted := false, lineCount := 0, pixelCount := 0,
        curY := 0#8, curCb := 0#8, curCr := 0#8,
        obs := { pixel := false, rgb := false, line := false, frame := false } } ∧
    (State.powerOn p).queue.wr = 0 ∧ (State.powerOn p).queue.rd = 0 ∧ (State.powerOn p).queue.full = false ∧
    (∀ a, Memory.find (State.powerOn p).queue.buf a = none) ∧
    (State.powerOn p).dstat =
      { framesReceived := 0, linesReceived := 0, pixelsReceived := 0,
        timingErrors := 0, syncErrors := 0, dataErrors := 0, lastFrameTime := 0 } ∧
    (State.powerOn p).cstat =
      { interruptsHandled := 0, bytesCaptured := 0, bufferOverflows := 0,
        missedSamples := 0, avgServiceTime := 0, lastServiceTime := 0 }

/-- An instance is built exactly for values within the constraints of R9, and with those values.
60_exceptions.md R287: such an instance is not built, and no state exists to be partially mutated; the type of the
parameters carries the proof. -/
def Obligations.IllegalParametersBuildNoInstance : Prop :=
  (∀ v : Setup,
    ((1 ≤ v.qcap ∧ 1 ≤ v.maxw ∧ ∀ w ∈ [v.xyw, v.statw, v.timew], w ≠ .bits 0) →
      ∃ p : Params, p.toSetup = v ∧ create v = .ok (State.powerOn p)) ∧
    (¬ (1 ≤ v.qcap ∧ 1 ≤ v.maxw ∧ ∀ w ∈ [v.xyw, v.statw, v.timew], w ≠ .bits 0) →
      create v = .error .setupRefused)) ∧
  ∀ s : State, 1 ≤ s.params.qcap ∧ 1 ≤ s.params.maxw ∧
    ∀ w ∈ [s.params.xyw, s.params.statw, s.params.timew], w ≠ .bits 0

/-- A step runs the instruction decoded from what the agent in turn gives the core.
The model's agents stand for the environment of 00_scope.md R7 and R8 (log entry 4). -/
def Obligations.StepRunsTheDecodedInstruction : Prop :=
  ∀ (s : State) (a : Agent) (turns : List Agent) (rs : List Request),
    s.turns = a :: turns → (ctxOf s a).drain = none →
    let u := setCtx a { ctxOf s a with requests := rs } { s with turns := turns, running := a }
    (∀ w, (ctxOf s a).requests = .command w :: rs → step s = exec (decodeCommand s.params.drainBits w) u) ∧
    (∀ b, (ctxOf s a).requests = .byte b :: rs → step s = exec (decodeStream s.dec.fsm b) u) ∧
    (∀ n, (ctxOf s a).requests = .drainMax n :: rs → step s = exec (.drain (n % 2 ^ s.params.maxw)) u) ∧
    (∀ b, (ctxOf s a).requests = .edge b :: rs → step s = exec (.sample b) u)

/-- Feeding runs PBYTE on the oldest staged byte; discarding, and having nothing to do, leave the core.
44_capture_queue.md R228: once for every byte obtained, in the order obtained, skipping none and inserting none.
The staging buffer, the feed with nothing staged and the discard are the model's choices (log entry 7), and so are the
steps of an agent with nothing to do and of a machine with no turn left (log entry 4). -/
def Obligations.AgentStepsOutsideTheCore : Prop :=
  (∀ s : State, s.turns = [] → step s = .next s) ∧ ∀ (s : State) (a : Agent) (turns : List Agent) (rs : List Request),
    s.turns = a :: turns → (ctxOf s a).drain = none →
    let u := setCtx a { ctxOf s a with requests := rs } { s with turns := turns, running := a }
    (∀ b rest, (ctxOf s a).requests = .feed :: rs → (ctxOf s a).staging = b :: rest →
      step s = exec (.pbyte b) (setCtx a { ctxOf u a with staging := rest } u)) ∧
    ((ctxOf s a).requests = .feed :: rs → (ctxOf s a).staging = [] → step s = .next u) ∧
    ((ctxOf s a).requests = .discard :: rs → step s = .next (setCtx a { ctxOf u a with staging := [] } u)) ∧
    ((ctxOf s a).requests = [] → step s = .next { s with turns := turns, running := a })

/-- Decoding the encoding of every well-formed instruction gives it back.
30_encoding.md R109, R120, R121: no operand bit of an encoding is dropped. -/
def Obligations.EncodedInstructionsDecodeBack : Prop :=
  ∀ (p : Params) (i : Instr) (r : Reading),
    wellFormed p i = true → i.appliesIn p r = true → decode r (encode i) = .ok i

/-- What decoding answers is well formed and belongs to the context it was read in.
30_encoding.md R109, R112, R120: every word has exactly one row, and none traps. -/
def Obligations.DecodedInstructionsFitTheirContext : Prop :=
  ∀ p : Params,
    (∀ w : CommandWord, wellFormed p (decodeCommand p.drainBits w) = true ∧
      (decodeCommand p.drainBits w).appliesIn p (.command p.drainBits) = true) ∧
    (∀ (f : Fsm) (b : Byte), wellFormed p (decodeStream f b) = true ∧
      (decodeStream f b).appliesIn p (.stream f) = true) ∧
    (∀ (act : Bool) (ph : Phase) (b : Byte), wellFormed p (decodeData act ph b) = true ∧
      (decodeData act ph b).appliesIn p (.data act ph) = true) ∧
    (∀ n : Nat, wellFormed p (.drain (n % 2 ^ p.maxw)) = true)

/-- Words written out from the spec's encodings decode to what they stand for.
95_test_vectors.md, the word columns of P1, P2 and P4, vectors K5 to K9 and E11. -/
def Obligations.SpecWordsDecode : Prop :=
  decodeTableWord 32 0x2000004 = some (.setobs .pixel true) ∧
    decodeTableWord 32 0x2000002 = some (.setobs .line false) ∧
    decodeTableWord 32 0x00000FF = some (.pbyte 0xFF#8) ∧
    decodeTableWord 32 0x3000002 = some (.rdstat 2#4) ∧
    decodeTableWord 32 0x5000010 = some (.drain 16) ∧
    decodeTableWord 32 0x6000000 = some .avail ∧
    decodeTableWord 32 0x80000FF = some (.sample 0xFF#8) ∧
    decodeTableWord 32 0x9000000 = some .dstatrst ∧
    decodeTableWord 32 0xF123456 = some .unassignedF ∧
    decodeStream .idle 0xFF#8 = .idleFf ∧ decodeStream .ff 0xFF#8 = .ffAny 0xFF#8 ∧
    decodeStream .ff0000 0x10#8 = .xy { field := false, vsync := false, hsync := true, sav := false }

/-- PBYTE in IDLE and FF looks for marker bytes 1 and 2, and the byte is data.
40_timing_reference_detector.md R141, R142; `applyErrorPolicy` is the end of every PBYTE step (R140). -/
def Obligations.IdleAndFfSteps : Prop :=
  ∀ (b : Byte) (s : State),
    (s.dec.fsm = .idle → exec (.pbyte b) s = .next (applyErrorPolicy
      (offerData b { s with dec := { s.dec with fsm := if b = 0xFF#8 then .ff else .idle } }))) ∧
    (s.dec.fsm = .ff → exec (.pbyte b) s = .next (applyErrorPolicy
      (offerData b { s with dec := { s.dec with fsm := if b = 0x00#8 then .ff00 else .idle } })))

/-- PBYTE in FF00 completes the marker on 00, else goes back to IDLE.
40_timing_reference_detector.md R143. -/
def Obligations.Ff00Step : Prop :=
  ∀ (b : Byte) (s : State), s.dec.fsm = .ff00 →
    (b = 0x00#8 → s.params.demuxMarker3 = false →
      exec (.pbyte b) s = .next (applyErrorPolicy { s with dec := { s.dec with fsm := .ff0000 } })) ∧
    (b = 0x00#8 → s.params.demuxMarker3 = true →
      exec (.pbyte b) s =
        .next (applyErrorPolicy (offerData b { s with dec := { s.dec with fsm := .ff0000 } }))) ∧
    (b ≠ 0x00#8 →
      exec (.pbyte b) s = .next (applyErrorPolicy (offerData b { s with dec := { s.dec with fsm := .idle } })))

/-- PBYTE in FF0000 parses the byte as the control byte in that step and ends in IDLE.
40_timing_reference_detector.md R144, with the flags read from bits 6, 5, 4 and 3 (30_encoding.md R102, R103). -/
def Obligations.ControlByteStep : Prop :=
  ∀ (b : Byte) (s : State), s.dec.fsm = .ff0000 →
    exec (.pbyte b) s =
      .next (applyErrorPolicy (setFsm .idle
        (syncControl
          { field := b.getLsbD 6, vsync := b.getLsbD 5, hsync := b.getLsbD 4, sav := b.getLsbD 3 }
          { s with dec := { s.dec with fsm := .controlByte } })))

/-- A byte that finds CONTROL_BYTE is the control byte, as in FF0000.
40_timing_reference_detector.md R145. -/
def Obligations.LateControlByteStep : Prop :=
  (∀ (f : SyncFlags) (s : State), exec (.xyLate f) s = exec (.xy f) s) ∧
    (∀ (b : Byte) (s : State), s.dec.fsm = .controlByte →
      let f : SyncFlags :=
        { field := b.getLsbD 6, vsync := b.getLsbD 5, hsync := b.getLsbD 4, sav := b.getLsbD 3 }
      exec (.pbyte b) s = .next (applyErrorPolicy (setFsm .idle (syncControl f s))) ∧
      exec (.pbyte b) s = exec (.xy f) s)

/-- An undefined detector state is forced to IDLE and the byte is ordinary data.
40_timing_reference_detector.md R146. -/
def Obligations.UndefinedStateResets : Prop :=
  ∀ (b : Byte) (s : State), (s.dec.fsm = .undef5 ∨ s.dec.fsm = .undef6 ∨ s.dec.fsm = .undef7) →
    exec (.pbyte b) s = .next (applyErrorPolicy (offerData b { s with dec := { s.dec with fsm := .idle } }))

/-- Each data-bearing STREAM class sets its row's next state and offers its byte.
The next_fsm and data columns of spec/opcode_table.json.  A class is stated in every state, its own context among them (log entry 12). -/
def Obligations.StreamClassesSetTheirNextState : Prop :=
  ∀ (b : Byte) (s : State),
    let goto (f : Fsm) : State := { s with dec := { s.dec with fsm := f } }
    exec .idleFf s = .next (applyErrorPolicy (offerData 0xFF#8 (goto .ff))) ∧
    exec (.idleAny b) s = .next (applyErrorPolicy (offerData b (goto .idle))) ∧
    exec .ffZero s = .next (applyErrorPolicy (offerData 0x00#8 (goto .ff00))) ∧
    exec (.ffAny b) s = .next (applyErrorPolicy (offerData b (goto .idle))) ∧
    (s.params.demuxMarker3 = false → exec .ff00Zero s = .next (applyErrorPolicy (goto .ff0000))) ∧
    (s.params.demuxMarker3 = true →
      exec .ff00Zero s = .next (applyErrorPolicy (offerData 0x00#8 (goto .ff0000)))) ∧
    exec (.ff00Any b) s = .next (applyErrorPolicy (offerData b (goto .idle))) ∧
    exec (.undefAny b) s = .next (applyErrorPolicy (offerData b (goto .idle)))

/-- PBYTE does what the stream class of its byte does.
30_encoding.md R109: the class depends on the detector's state at the start of the step and on the byte. -/
def Obligations.PbyteRunsItsStreamClass : Prop :=
  ∀ (b : Byte) (s : State), exec (.pbyte b) s = exec (decodeStream s.dec.fsm b) s

/-- A control byte is read as its bits 6, 5, 4 and 3, and two that agree in them have the same effect.
30_encoding.md R102, R103, R110. -/
def Obligations.ControlByteIgnoresItsOtherBits : Prop :=
  (∀ b : Byte, controlFlags b =
    { field := b.getLsbD 6, vsync := b.getLsbD 5, hsync := b.getLsbD 4, sav := b.getLsbD 3 }) ∧
  (∀ (b : Byte) (s : State), (s.dec.fsm = .ff0000 ∨ s.dec.fsm = .controlByte) →
    exec (.pbyte b) s = exec (.xy
      { field := b.getLsbD 6, vsync := b.getLsbD 5, hsync := b.getLsbD 4, sav := b.getLsbD 3 }) s) ∧
  ∀ (b c : Byte) (s : State), (s.dec.fsm = .ff0000 ∨ s.dec.fsm = .controlByte) →
    (∀ k, 3 ≤ k → k ≤ 6 → b.getLsbD k = c.getLsbD k) →
    exec (.pbyte b) s = exec (.pbyte c) s

/-- A run of k bytes FF before 00 00 completes a marker exactly for odd k.
40_timing_reference_detector.md R149 (i), (ii), (iii).  For every content of the decoder, so also inside an active region. -/
def Obligations.MarkerDetectionFollowsTheRunLength : Prop :=
  ∀ s : State, s.dec.fsm = .idle →
    (∀ k, (feedBytes (List.replicate k 0xFF#8 ++ [0x00#8, 0x00#8]) s).dec.fsm =
      if k % 2 = 1 then .ff0000 else .idle) ∧
    (feedBytes [0xFF#8, 0x00#8, 0xFF#8, 0x00#8, 0x00#8] s).dec.fsm = .idle ∧
    (∀ c, (feedBytes [0xFF#8, 0x00#8, 0x00#8, c, 0x00#8, 0x00#8] s).dec.fsm = .idle)

/-- The detector awaits a control byte exactly after FF 00 00 begun in IDLE.
40_timing_reference_detector.md R148, for sequences of PBYTE steps with no RESET among them. -/
def Obligations.ControlByteNeedsAMarkerFromIdle : Prop :=
  ∀ (bs : List Byte) (s : State), s.dec.fsm = .idle →
    ((feedBytes bs s).dec.fsm = .ff0000 ↔
      ∃ pre, bs = pre ++ marker ∧ (feedBytes pre s).dec.fsm = .idle)

/-- A byte sequence without FF 00 00 changes no sync state and emits no sync event.
The first property of the source's section 8 (95_test_vectors.md E2). -/
def Obligations.NoMarkerNoDetection : Prop :=
  ∀ (bs : List Byte) (s : State), s.dec.fsm = .idle → ¬ marker <:+: bs →
    let t := feedBytes bs s
    t.dec.lastFlags = s.dec.lastFlags ∧ t.dec.active = s.dec.active ∧
    t.dec.frameStarted = s.dec.frameStarted ∧ t.dec.lineStarted = s.dec.lineStarted ∧
    t.dec.lineCount = s.dec.lineCount ∧
    t.dstat.framesReceived = s.dstat.framesReceived ∧ t.dstat.linesReceived = s.dstat.linesReceived ∧
    ∃ es : List Event, t.trace = s.trace ++ es ∧ ∀ e ∈ es, e ≠ .frame ∧ ∀ n, e ≠ .line n

/-- A control byte runs the vsync, hsync and sav checks in order and stores its flags.
41_sync_flags.md R160 to R169, for every value of the free reading of `now()` (00_scope.md R16). -/
def Obligations.ControlByteEffect : Prop :=
  ∀ (f : SyncFlags) (s : State),
    let v := f.vsync && !s.dec.lastFlags.vsync
    let h := f.hsync && !s.dec.lastFlags.hsync
    let line0 := if v then 0 else s.dec.lineCount
    let t := applyErrorPolicy
      { s with
        dec :=
          { s.dec with
            fsm := .idle
            active := f.sav
            phase := if f.sav then .y1 else s.dec.phase
            lastFlags := f
            frameStarted := s.dec.frameStarted || v
            lineStarted := s.dec.lineStarted || h
            lineCount := if h then inc s.params.xyw line0 else line0
            pixelCount := if v || h || f.sav then 0 else s.dec.pixelCount }
        dstat :=
          { s.dstat with
            framesReceived := if v then inc s.params.statw s.dstat.framesReceived else s.dstat.framesReceived
            linesReceived := if h then inc s.params.statw s.dstat.linesReceived else s.dstat.linesReceived
            lastFrameTime := if v then readNow s else s.dstat.lastFrameTime }
        trace := s.trace ++ (if v && s.dec.obs.frame then [.frame] else []) ++
          (if h && s.dec.obs.line then [.line line0] else [])
        draws := if v then s.draws + 1 else s.draws }
    exec (.xy f) s = .next t ∧ exec (.xyLate f) s = .next t

/-- A PBYTE step emits Frame then Line, or Pixel then Rgb, each at most once, or nothing.
60_exceptions.md R289, R290, R291. -/
def Obligations.EventsOfOnePbyteStep : Prop :=
  ∀ (b : Byte) (s : State), ∃ t es, exec (.pbyte b) s = .next t ∧ t.trace = s.trace ++ es ∧
    ((∃ n, es.Sublist [.frame, .line n]) ∨
     (∃ y cb cr x l r g bl, es.Sublist [.pixel y cb cr x l, .rgb r g bl x l])) ∧
    (s.dec.obs.frame = false → .frame ∉ es) ∧ (s.dec.obs.line = false → ∀ n, .line n ∉ es) ∧
    (s.dec.obs.pixel = false → ∀ y cb cr x l, .pixel y cb cr x l ∉ es) ∧
    (s.dec.obs.rgb = false → ∀ r g bl x l, .rgb r g bl x l ∉ es)

/-- The phases Y1, CB and Y2 store their byte and advance, and nothing else.
42_pixel_demux.md R182, R183, R184. -/
def Obligations.DataPhasesY1CbY2 : Prop :=
  ∀ (b : Byte) (s : State),
    exec (.dataY1 b) s = .next { s with dec := { s.dec with curY := b, phase := .cb } } ∧
    exec (.dataCb b) s = .next { s with dec := { s.dec with curCb := b, phase := .y2 } } ∧
    exec (.dataY2 b) s = .next { s with dec := { s.dec with curY := b, phase := .cr } }

/-- The phase CR completes the sample, dispatches it and counts it.
42_pixel_demux.md R185. -/
def Obligations.CrPhaseDispatchesTheSample : Prop :=
  ∀ (b : Byte) (s : State),
    let c := ycc2rgb s.dec.curY s.dec.curCb b
    exec (.dataCr b) s = .next
      { s with
        dec := { s.dec with
          curCr := b, phase := .y1, pixelCount := inc s.params.xyw s.dec.pixelCount }
        dstat := { s.dstat with pixelsReceived := inc s.params.statw s.dstat.pixelsReceived }
        trace := s.trace ++
          (if s.dec.obs.pixel then [.pixel s.dec.curY s.dec.curCb b s.dec.pixelCount s.dec.lineCount] else []) ++
          (if s.dec.obs.rgb then [.rgb c.r c.g c.b s.dec.pixelCount s.dec.lineCount] else []) }

/-- A data byte outside the active region changes nothing of the demultiplexer, whatever the detector's state.
42_pixel_demux.md R189: `phase` included, and `data_errors` is not incremented; R147 lists the states that offer a byte. -/
def Obligations.BytesOutsideTheRegionAreDiscarded : Prop :=
  (∀ (b : Byte) (s : State), exec (.dataDiscard b) s = .next s) ∧
  (∀ (b : Byte) (s : State), s.dec.active = false →
    let movesTo (f : Fsm) : Prop :=
      exec (.pbyte b) s = .next (applyErrorPolicy { s with dec := { s.dec with fsm := f } })
    (s.dec.fsm = .idle → movesTo (if b = 0xFF#8 then .ff else .idle)) ∧
    (s.dec.fsm = .ff → movesTo (if b = 0x00#8 then .ff00 else .idle)) ∧
    (s.dec.fsm = .ff00 → movesTo (if b = 0x00#8 then .ff0000 else .idle)) ∧
    ((s.dec.fsm = .undef5 ∨ s.dec.fsm = .undef6 ∨ s.dec.fsm = .undef7) → movesTo .idle)) ∧
  (∀ s : State, s.params.errcntPolicy = .frozen → applyErrorPolicy s = s)

/-- A byte offered as data is handled by the DATA row of the active flag and the phase, in every detector state.
40_timing_reference_detector.md R147 and the last paragraph of 30_encoding.md R109: a second level of context (`phase`)
and a third (`active`). -/
def Obligations.SecondLevelReadingAgrees : Prop :=
  ∀ (b : Byte) (s : State),
    let handled (f : Fsm) : Prop :=
      ∃ t, exec (decodeData s.dec.active s.dec.phase b) { s with dec := { s.dec with fsm := f } } = .next t ∧
        exec (.pbyte b) s = .next (applyErrorPolicy t)
    (s.dec.fsm = .idle → handled (if b = 0xFF#8 then .ff else .idle)) ∧
    (s.dec.fsm = .ff → handled (if b = 0x00#8 then .ff00 else .idle)) ∧
    (s.dec.fsm = .ff00 → b ≠ 0x00#8 → handled .idle) ∧
    (s.dec.fsm = .ff00 → b = 0x00#8 → s.params.demuxMarker3 = true → handled .ff0000) ∧
    ((s.dec.fsm = .undef5 ∨ s.dec.fsm = .undef6 ∨ s.dec.fsm = .undef7) → handled .idle)

/-- A control byte with sav set and four bytes give one pixel event at (0, current line).
42_pixel_demux.md R186 and the source's property E4, with the condition R329 makes necessary: the four bytes hold no marker. -/
def Obligations.OneSamplePerGroupAfterSav : Prop :=
  ∀ (c y1 cb y2 cr : Byte) (s : State), s.dec.fsm = .ff0000 → c.getLsbD 3 = true →
    ¬ marker <:+: [y1, cb, y2, cr] →
    let u := feedByte c s
    let t := feedBytes [y1, cb, y2, cr] u
    let rgb := ycc2rgb y2 cb cr
    t.trace = u.trace ++
      (if s.dec.obs.pixel then [.pixel y2 cb cr 0 u.dec.lineCount] else []) ++
      (if s.dec.obs.rgb then [.rgb rgb.r rgb.g rgb.b 0 u.dec.lineCount] else []) ∧
    t.dstat.pixelsReceived = inc s.params.statw s.dstat.pixelsReceived ∧
    t.dec.pixelCount = inc s.params.xyw 0 ∧ t.dec.phase = .y1 ∧ t.dec.active = true

/-- Successive groups of a line carry successive x coordinates.
42_pixel_demux.md R186: `xpos` counts sample groups. -/
def Obligations.GroupsAreNumberedFromThePixelCount : Prop :=
  ∀ (gs : List Group) (s : State), s.dec.fsm = .idle → s.dec.active = true → s.dec.phase = .y1 →
    s.dec.obs.pixel = true → s.dec.obs.rgb = false →
    (∀ g ∈ gs, ∀ b ∈ g.bytes, b ≠ 0xFF#8) →
    fits s.params.xyw (s.dec.pixelCount + gs.length) = true →
    let t := feedBytes (gs.flatMap Group.bytes) s
    t.trace = s.trace ++
      gs.mapIdx (fun k g => .pixel g.y2 g.cb g.cr (s.dec.pixelCount + k) s.dec.lineCount) ∧
    t.dec.pixelCount = s.dec.pixelCount + gs.length ∧ t.dec.phase = .y1 ∧ t.dec.fsm = .idle

/-- RESET clears the framing state and nothing else.
45_control_ops.md R250. -/
def Obligations.ResetForcesTheFramingState : Prop :=
  ∀ s : State, exec .reset s = .next
    { s with
      dec :=
        { s.dec with
          fsm := .idle, active := false, phase := .y1, lineCount := 0, pixelCount := 0,
          lastFlags := { field := false, vsync := false, hsync := false, sav := false },
          frameStarted := false, lineStarted := false } }

/-- DSTATRST and CSTATRST zero their own record and nothing else.
45_control_ops.md R251, R252. -/
def Obligations.StatisticsResetsZeroTheirRecord : Prop :=
  ∀ s : State,
    exec .dstatrst s = .next
      { s with dstat :=
          { framesReceived := 0, linesReceived := 0, pixelsReceived := 0,
            timingErrors := 0, syncErrors := 0, dataErrors := 0, lastFrameTime := 0 } } ∧
    exec .cstatrst s = .next
      { s with cstat :=
          { interruptsHandled := 0, bytesCaptured := 0, bufferOverflows := 0,
            missedSamples := 0, avgServiceTime := 0, lastServiceTime := 0 } }

/-- After RESET every byte sequence is decoded as from power-on.
70_reset_and_hazards.md R312. -/
def Obligations.ResetDecodesLikePowerOn : Prop :=
  ∀ (bs : List Byte) (s : State), ∃ (t : State) (es : List Event),
    exec .reset s = .next t ∧
    let fresh : State :=
      { State.powerOn s.params with dec := { (State.powerOn s.params).dec with obs := s.dec.obs } }
    (feedBytes bs t).trace = s.trace ++ es ∧ (feedBytes bs fresh).trace = es ∧
    Decoder.framing (feedBytes bs t).dec = Decoder.framing (feedBytes bs fresh).dec

/-- SETOBS writes the observer bit of its kind and nothing else.
45_control_ops.md R253. -/
def Obligations.SetobsWritesOneBit : Prop :=
  ∀ (k : ObsKind) (v : Bool) (s : State),
    ∃ o : Observers, exec (.setobs k v) s = .next { s with dec := { s.dec with obs := o } } ∧
      getObs k o = v ∧ ∀ j, j ≠ k → getObs j o = getObs j s.dec.obs

/-- RDSTAT returns the register of its number and changes no register.
10_state.md R50, 45_control_ops.md R254. -/
def Obligations.RdstatReadsTheRegisterMap : Prop :=
  ∀ (i : BitVec 4) (s : State),
    exec (.rdstat i) s = .next { s with results := s.results ++ [.port (
      [s.dstat.framesReceived, s.dstat.linesReceived, s.dstat.pixelsReceived, s.dstat.timingErrors,
       s.dstat.syncErrors, s.dstat.dataErrors, s.dstat.lastFrameTime, 0,
       s.cstat.interruptsHandled, s.cstat.bytesCaptured, s.cstat.bufferOverflows, s.cstat.missedSamples,
       s.cstat.avgServiceTime, s.cstat.lastServiceTime, 0, 0].getD i.toNat 0)] }

/-- The select codes E and F are no-operations.
30_encoding.md R122. -/
def Obligations.UnassignedCodesDoNothing : Prop :=
  ∀ s : State, exec .unassignedE s = .next s ∧ exec .unassignedF s = .next s

/-- YCC2RGB truncates the exact linear sums toward zero and clamps them.
43_color_converter.md R201 and the result column of 30_encoding.md R120. -/
def Obligations.Ycc2rgbIsTheExactTransform : Prop :=
  ∀ (y cb cr : Byte) (s : State),
    let yp : Int := (y.toNat : Int) - 16
    let cbp : Int := (cb.toNat : Int) - 128
    let crp : Int := (cr.toNat : Int) - 128
    let ch (n : Int) : Nat := (max 0 (min 255 (n.tdiv 1000))).toNat
    exec (.ycc2rgb y cb cr) s = .next { s with results := s.results ++ [.port
      (ch (1000 * yp + 1402 * crp) * 65536 + ch (1000 * yp - 344 * cbp - 714 * crp) * 256 +
        ch (1000 * yp + 1772 * cbp))] }

/-- Truncation and rounding down give the same channel.
43_color_converter.md R202 (b): indistinguishable, because negative sums clamp to 0 (`/` on integers rounds down for a positive divisor). -/
def Obligations.TruncationEqualsFloorAfterTheClamp : Prop :=
  ∀ n : Int, channel n = clamp255 (n / 1000)

/-- RGB2565 packs the top 5, 6 and 5 bits with red on top.
43_color_converter.md R203. -/
def Obligations.Rgb2565KeepsTheTopBits : Prop :=
  ∀ (r g b : Byte) (s : State),
    exec (.rgb2565 r g b) s = .next { s with results := s.results ++ [.port
      ((r.toNat >>> 3) * 2048 + (g.toNat >>> 2) * 32 + (b.toNat >>> 3))] }

/-- YCC2GRAY returns the luma unchanged.
43_color_converter.md R204. -/
def Obligations.Ycc2grayIsTheLuma : Prop :=
  ∀ (y cb cr : Byte) (s : State),
    exec (.ycc2gray y cb cr) s = .next { s with results := s.results ++ [.port y.toNat] }

/-- PUSH rejects and counts on a full queue and stores at wr otherwise.
44_capture_queue.md R220. -/
def Obligations.PushStoresOrCounts : Prop :=
  ∀ (b : Byte) (s : State),
    (s.queue.full = true → exec (.push b) s = .next
      { s with
        cstat := { s.cstat with bufferOverflows := inc s.params.statw s.cstat.bufferOverflows }
        results := s.results ++ [.pushAccepted false] }) ∧
    (s.queue.full = false → s.queue.wr < s.params.qcap → exec (.push b) s = .next
      { s with
        queue :=
          { s.queue with
            buf := Memory.store s.queue.buf s.queue.wr b
            wr := (s.queue.wr + 1) % s.params.qcap
            full := decide ((s.queue.wr + 1) % s.params.qcap = s.queue.rd) }
        results := s.results ++ [.pushAccepted true] })

/-- PUSH stores to the cell at wr and to no other, and to none when the queue is full.
20_memory.md R71: `MemWrite` "changes no other cell". -/
def Obligations.PushWritesOnlyTheCellAtWr : Prop :=
  ∀ (b : Byte) (s : State) (i : Instr), (i = .push b ∨ (i = .sample b ∧ s.params.mode = .buffered)) →
    (s.queue.full = true ∨ s.queue.wr < s.params.qcap) →
    ∃ t, exec i s = .next t ∧
      (s.queue.full = false → Memory.find t.queue.buf s.queue.wr = some b) ∧
      (∀ a, (s.queue.full = true ∨ a ≠ s.queue.wr) → Memory.find t.queue.buf a = Memory.find s.queue.buf a)

/-- POP on an empty queue answers invalid, else it takes the byte at rd and clears full.
44_capture_queue.md R221. -/
def Obligations.PopTakesTheByteAtRd : Prop :=
  ∀ s : State,
    (s.queue.wr = s.queue.rd ∧ s.queue.full = false →
      exec .pop s = .next { s with results := s.results ++ [.popped none] }) ∧
    (¬ (s.queue.wr = s.queue.rd ∧ s.queue.full = false) → s.queue.rd < s.params.qcap →
      ∃ t, exec .pop s = .next t ∧
        t.results = s.results ++ [.popped (some (cellValue s.queue.buf s.queue.rd))] ∧
        t.queue = { s.queue with rd := (s.queue.rd + 1) % s.params.qcap, full := false } ∧
        t.dec = s.dec ∧ t.dstat = s.dstat ∧ t.cstat = s.cstat ∧ t.trace = s.trace ∧ t.params = s.params)

/-- A popped byte joins the staging buffer of the agent that popped it.
The staging buffer is the model's place for the caller's buffer of 10_state.md R55 (log entry 7). -/
def Obligations.PopStagesTheByte : Prop :=
  ∀ s : State, ¬ (s.queue.wr = s.queue.rd ∧ s.queue.full = false) → s.queue.rd < s.params.qcap →
    ∃ t, exec .pop s = .next t ∧
      ctxOf t s.running = { ctxOf s s.running with
        staging := (ctxOf s s.running).staging ++ [cellValue s.queue.buf s.queue.rd] } ∧
      (∀ a, a ≠ s.running → ctxOf t a = ctxOf s a) ∧
      t.turns = s.turns ∧ t.running = s.running ∧ t.draws = s.draws

/-- AVAIL answers the number of queued bytes and changes no state.
44_capture_queue.md R223 (`%` on integers is the remainder of 00_scope.md R14). -/
def Obligations.AvailCountsWithoutChangingState : Prop :=
  ∀ s : State,
    (s.queue.full = true →
      exec .avail s = .next { s with results := s.results ++ [.available s.params.qcap] }) ∧
    (s.queue.full = false → exec .avail s = .next { s with results := s.results ++
      [.available (((s.queue.wr : Int) - (s.queue.rd : Int)) % (s.params.qcap : Int)).toNat] })

/-- A DRAIN takes one POP a step, whatever the queue holds by then, until it has ended.
20_memory.md R82: the indivisible unit is the single-byte POP, and other agents may step between two of them.
The record of a DRAIN in progress, the step of a DRAIN 0 and the place of the bytes taken are the model's (log entries 6
and 7). -/
def Obligations.DrainBeginsWithOnePop : Prop :=
  (∀ (n : Nat) (s : State),
    let rest := { s.queue with rd := (s.queue.rd + 1) % s.params.qcap, full := false }
    let b := cellValue s.queue.buf s.queue.rd
    ((n = 0 ∨ (s.queue.wr = s.queue.rd ∧ s.queue.full = false)) →
      ∃ t, exec (.drain n) s = .next t ∧ t.results = s.results ++ [.drained []] ∧ t.queue = s.queue ∧
        (ctxOf t s.running).drain = none ∧ t.dec = s.dec ∧ t.dstat = s.dstat ∧ t.cstat = s.cstat) ∧
    (n ≠ 0 → ¬ (s.queue.wr = s.queue.rd ∧ s.queue.full = false) → s.queue.rd < s.params.qcap →
      ∃ t, exec (.drain n) s = .next t ∧ t.queue = rest ∧
        (n = 1 → t.results = s.results ++ [.drained [b]] ∧ (ctxOf t s.running).drain = none) ∧
        (2 ≤ n → t.results = s.results ∧
          (ctxOf t s.running).drain = some { remaining := n - 1, got := [b], thenFeed := false }) ∧
        t.dec = s.dec ∧ t.dstat = s.dstat ∧ t.cstat = s.cstat)) ∧
  (∀ (s : State) (a : Agent) (turns : List Agent) (d : Drain),
    s.turns = a :: turns → (ctxOf s a).drain = some d →
    let rest := { s.queue with rd := (s.queue.rd + 1) % s.params.qcap, full := false }
    let b := cellValue s.queue.buf s.queue.rd
    let staged (bs : List Byte) : List Byte := if d.thenFeed then (ctxOf s a).staging else (ctxOf s a).staging ++ bs
    let after (bs : List Byte) : List Request :=
      if d.thenFeed then bs.map .byte ++ (ctxOf s a).requests else (ctxOf s a).requests
    let frame (t : State) : Prop :=
      t.params = s.params ∧ t.dec = s.dec ∧ t.dstat = s.dstat ∧ t.cstat = s.cstat ∧ t.trace = s.trace ∧
      t.turns = turns ∧ t.running = a ∧ t.draws = s.draws ∧ ∀ c, c ≠ a → ctxOf t c = ctxOf s c
    ((d.remaining = 0 ∨ (s.queue.wr = s.queue.rd ∧ s.queue.full = false)) →
      ∃ t, step s = .next t ∧ frame t ∧ t.queue = s.queue ∧ t.results = s.results ++ [.drained d.got] ∧
        ctxOf t a = { requests := after d.got, drain := none, staging := staged [] }) ∧
    (¬ (s.queue.wr = s.queue.rd ∧ s.queue.full = false) → s.queue.rd < s.params.qcap →
      (d.remaining = 1 →
        ∃ t, step s = .next t ∧ frame t ∧ t.queue = rest ∧ t.results = s.results ++ [.drained (d.got ++ [b])] ∧
          ctxOf t a = { requests := after (d.got ++ [b]), drain := none, staging := staged [b] }) ∧
      (2 ≤ d.remaining →
        ∃ t, step s = .next t ∧ frame t ∧ t.queue = rest ∧ t.results = s.results ∧
          ctxOf t a =
            { requests := (ctxOf s a).requests, staging := staged [b]
              drain := some { remaining := d.remaining - 1, got := d.got ++ [b], thenFeed := d.thenFeed } })))

/-- SAMPLE in buffered mode counts the interrupt, pushes the byte and counts it if kept.
44_capture_queue.md R226, for every value of the two free service-time fields (R227). -/
def Obligations.SampleInBufferedMode : Prop :=
  ∀ (b : Byte) (s : State), s.params.mode = .buffered →
    let counted : CaptureStats :=
      { s.cstat with
        interruptsHandled := inc s.params.statw s.cstat.interruptsHandled
        lastServiceTime := readNow s, avgServiceTime := readAvgServiceTime s }
    (s.queue.full = true → exec (.sample b) s = .next
      { s with
        cstat := { counted with bufferOverflows := inc s.params.statw s.cstat.bufferOverflows }
        draws := s.draws + 1 }) ∧
    (s.queue.full = false → s.queue.wr < s.params.qcap → exec (.sample b) s = .next
      { s with
        queue :=
          { s.queue with
            buf := Memory.store s.queue.buf s.queue.wr b
            wr := (s.queue.wr + 1) % s.params.qcap
            full := decide ((s.queue.wr + 1) % s.params.qcap = s.queue.rd) }
        cstat := { counted with bytesCaptured := inc s.params.statw s.cstat.bytesCaptured }
        draws := s.draws + 1 })

/-- SAMPLE in direct mode counts the byte, decodes it and never touches the queue.
44_capture_queue.md R226: in direct mode the queue is not used. -/
def Obligations.SampleInDirectMode : Prop :=
  ∀ (b : Byte) (s : State), s.params.mode = .direct →
    ∃ t u, exec (.sample b) s = .next t ∧ exec (.pbyte b) s = .next u ∧
      t.dec = u.dec ∧ t.dstat = u.dstat ∧ t.trace = u.trace ∧ t.queue = s.queue ∧ t.results = s.results ∧
      t.params = s.params ∧
      t.cstat.interruptsHandled = inc s.params.statw s.cstat.interruptsHandled ∧
      t.cstat.bytesCaptured = inc s.params.statw s.cstat.bytesCaptured ∧
      t.cstat.bufferOverflows = s.cstat.bufferOverflows ∧ t.cstat.missedSamples = s.cstat.missedSamples ∧
      (∀ a, ctxOf t a = ctxOf s a)

/-- An access to a cell outside 0 .. QCAP-1 stops the machine by name.
20_memory.md R71: such an access "cannot occur and has no defined behaviour to model"; the fault is the model's (log entry 3). -/
def Obligations.CursorOutsideTheMemoryFaults : Prop :=
  ∀ (b : Byte) (n : Nat) (s : State),
    (s.queue.full = false → s.params.qcap ≤ s.queue.wr →
      exec (.push b) s = .fault .bufIndexOutOfRange ∧
      (s.params.mode = .buffered → exec (.sample b) s = .fault .bufIndexOutOfRange)) ∧
    (¬ (s.queue.wr = s.queue.rd ∧ s.queue.full = false) → s.params.qcap ≤ s.queue.rd →
      exec .pop s = .fault .bufIndexOutOfRange ∧ exec (.drain (n + 1)) s = .fault .bufIndexOutOfRange)

/-- PUSH appends to the queued bytes and POP takes the oldest.
20_memory.md R77: the popped bytes are a prefix of the accepted ones and the queue holds the rest, oldest first. -/
def Obligations.QueueIsFirstInFirstOut : Prop :=
  ∀ s : State, Queue.Inv s.params s.queue →
    (∀ b, ∃ t, exec (.push b) s = .next t ∧
      Queue.contents s.params t.queue =
        if s.queue.full then Queue.contents s.params s.queue else Queue.contents s.params s.queue ++ [b]) ∧
    (∃ t, exec .pop s = .next t ∧
      t.results = s.results ++ [.popped (Queue.contents s.params s.queue).head?] ∧
      Queue.contents s.params t.queue = (Queue.contents s.params s.queue).tail)

/-- Pushing capacity plus one bytes keeps the first capacity bytes and counts one overflow.
44_capture_queue.md R225. -/
def Obligations.OverflowKeepsTheOldestBytes : Prop :=
  ∀ (bs : List Byte) (b : Byte) (s : State), Queue.Inv s.params s.queue →
    s.queue.wr = s.queue.rd → s.queue.full = false → bs.length = s.params.qcap →
    ∃ t, execAll (bs.map .push ++ [.push b]) s = .next t ∧
      Queue.contents s.params t.queue = bs ∧ Queue.count s.params t.queue = s.params.qcap ∧
      t.cstat.bufferOverflows = inc s.params.statw s.cstat.bufferOverflows ∧
      t.results = s.results ++ List.replicate s.params.qcap (.pushAccepted true) ++ [.pushAccepted false]

/-- A DRAIN with no other step between its POPs returns the oldest min(n, available) bytes.
44_capture_queue.md R222: when no producer step interleaves, `count = min(n, available)` exactly.
The number of steps (one for DRAIN 0) and the cleared record are the model's choices of log entry 6, the staging buffer
that of log entry 7. -/
def Obligations.UndisturbedDrainTakesTheOldestBytes : Prop :=
  ∀ (n : Nat) (s : State) (rs : List Request) (turns : List Agent),
    Queue.Inv s.params s.queue → s.consumer.drain = none →
    (n < 2 ^ s.params.drainBits ∧ s.consumer.requests = requestOf (encode (.drain n)) :: rs ∨
      n < 2 ^ s.params.maxw ∧ s.consumer.requests = .drainMax n :: rs) →
    s.turns = List.replicate (drainSteps n (Queue.count s.params s.queue)) .consumer ++ turns →
    ∃ t, runSteps (drainSteps n (Queue.count s.params s.queue)) s = .next t ∧
      t.results = s.results ++ [.drained ((Queue.contents s.params s.queue).take n)] ∧
      Queue.contents s.params t.queue = (Queue.contents s.params s.queue).drop n ∧
      t.consumer = { requests := rs, drain := none,
                     staging := s.consumer.staging ++ (Queue.contents s.params s.queue).take n } ∧
      t.turns = turns ∧ t.dec = s.dec ∧ t.dstat = s.dstat ∧ t.cstat = s.cstat ∧ t.trace = s.trace

/-- An undisturbed SERVICE decodes the oldest min(n, available) queued bytes in order, and no other byte.
44_capture_queue.md R229: DRAIN n, then PBYTE of each byte drained, in order.
The number of steps (SERVICE 0 takes one) and the requests that feed the bytes are the model's choices of log entry 6,
the staging buffer that of log entry 7. -/
def Obligations.ServiceDecodesWhatItDrains : Prop :=
  ∀ (n : Nat) (s : State) (rs : List Request) (turns : List Agent),
    Queue.Inv s.params s.queue →
    s.consumer.requests = .service n :: rs → s.consumer.drain = none →
    let bytes := (Queue.contents s.params s.queue).take n
    let k := drainSteps n (Queue.count s.params s.queue) + bytes.length
    s.turns = List.replicate k .consumer ++ turns →
    ∃ t, runSteps k s = .next t ∧
      t.dec = (feedBytes bytes s).dec ∧ t.dstat = (feedBytes bytes s).dstat ∧
      t.trace = (feedBytes bytes s).trace ∧
      Queue.contents s.params t.queue = (Queue.contents s.params s.queue).drop n ∧
      t.consumer = { requests := rs, drain := none, staging := s.consumer.staging } ∧ t.turns = turns

/-- Buffered and direct mode decode the same stream alike while no byte is rejected.
44_capture_queue.md R230: "the decoder's contract (§4) is identical either way".  First for one filling of the queue;
then for every interleaving of clock edges, of a consumer that keeps the order of R228, and of a host that reads
registers: decoding what is still in flight and queued completes the direct-mode run of the samples taken.
The bytes in flight are those of the model's agent (log entries 6 and 7). -/
def Obligations.BothModesDecodeTheSameStream : Prop :=
  (∀ (bs : List Byte) (s : State), Queue.Inv s.params s.queue →
    s.params.mode = .buffered → s.params.errcntPolicy = .frozen →
    s.queue.wr = s.queue.rd → s.queue.full = false → bs.length ≤ s.params.qcap →
    ∃ tb td, execAll (bs.map .sample) s = .next tb ∧
      execAll (bs.map .sample) { s with params := { s.params with mode := .direct } } = .next td ∧
      Queue.contents s.params tb.queue = bs ∧ tb.dec = s.dec ∧
      let u := feedBytes (Queue.contents s.params tb.queue) tb
      u.dec = td.dec ∧ u.trace = td.trace ∧
      DecoderStats.untimed u.dstat = DecoderStats.untimed td.dstat) ∧
  (∀ (bs : List Byte) (k : Nat) (s t : State), Queue.Inv s.params s.queue →
    s.params.mode = .buffered → s.params.errcntPolicy = .frozen →
    s.queue.wr = s.queue.rd → s.queue.full = false →
    s.producer = { requests := bs.map .edge, drain := none, staging := [] } →
    s.consumer.drain = none → s.consumer.staging = [] → keepsOrder s.consumer.requests →
    s.host.drain = none → (∀ r ∈ s.host.requests, ∃ i, r = requestOf (encode (.rdstat i))) →
    fits s.params.statw (s.cstat.bufferOverflows + 1) = true →
    runSteps k s = .next t → t.cstat.bufferOverflows = s.cstat.bufferOverflows →
    ∃ taken rest td, bs = taken ++ rest ∧ t.producer.requests = rest.map .edge ∧
      execAll (taken.map .sample) { s with params := { s.params with mode := .direct } } = .next td ∧
      let u := feedBytes (AgentCtx.inFlight t.consumer ++ Queue.contents s.params t.queue) t
      u.dec = td.dec ∧ u.trace = td.trace ∧
      DecoderStats.untimed u.dstat = DecoderStats.untimed td.dstat)

/-- Every SAMPLE keeps interrupts_handled equal to bytes_captured plus buffer_overflows.
10_state.md R41: while no counter has saturated and PUSH is invoked only through SAMPLE. -/
def Obligations.InterruptsAreCapturedOrOverflown : Prop :=
  ∀ (b : Byte) (s : State), s.queue.wr < s.params.qcap →
    s.cstat.interruptsHandled = s.cstat.bytesCaptured + s.cstat.bufferOverflows →
    fits s.params.statw (s.cstat.interruptsHandled + 1) = true →
    ∃ t, exec (.sample b) s = .next t ∧
      t.cstat.interruptsHandled = s.cstat.interruptsHandled + 1 ∧
      t.cstat.interruptsHandled = t.cstat.bytesCaptured + t.cstat.bufferOverflows

/-- The machine's invariant holds at power-on for every configuration, and at reset.
10_state.md R38: holding at every step boundary from power-on.  State.reset is the power-on state of the model's default parameters (log entry 1). -/
def Obligations.InvariantHoldsAtPowerOn : Prop :=
  (∀ p : Params, (State.powerOn p).Inv) ∧ State.reset.Inv

/-- Every step, and every instruction, keeps the machine's invariant.
10_state.md R23 and R38, by induction over steps. -/
def Obligations.EveryStepKeepsTheInvariant : Prop :=
  ∀ s : State, s.Inv →
    (∀ t, step s = .next t → t.Inv) ∧ (∀ i t, exec i s = .next t → t.Inv)

/-- Under the invariant every step goes on, and every interleaving of the agents' steps from power-on is a run, finite
or infinite.
60_exceptions.md R280, 00_scope.md R18; the invariant rules out cursors outside the memory (log entry 3), which no run
from power-on reaches.  The moves of a run are the model's (log entry 4). -/
def Obligations.NothingStopsTheMachine : Prop :=
  (∀ s : State, s.Inv → s.goesOn ∧ ∀ i, ∃ t, exec i s = .next t) ∧
  (∀ (p : Params) (ms : List Move), ∃ t, runMoves ms (State.powerOn p) = .next t ∧ t.Inv) ∧
  (∀ (p : Params) (moves : Nat → Move), ∃ states, isRun p moves states ∧ ∀ k, (states k).Inv ∧
    (states k).trace <+: (states (k + 1)).trace ∧ (states k).results <+: (states (k + 1)).results)

/-- Only PUSH, POP, DRAIN and SAMPLE touch the queue, and only they and CSTATRST the Capture Statistics.
40_timing_reference_detector.md R140: PBYTE never touches the queue or the Capture Statistics; R313 for the resets. -/
def Obligations.OnlyQueueOperationsTouchTheQueue : Prop :=
  ∀ (i : Instr) (s t : State), exec i s = .next t →
    ((∀ b, i ≠ .push b) ∧ i ≠ .pop ∧ (∀ n, i ≠ .drain n) ∧ (∀ b, i ≠ .sample b)) →
    t.queue = s.queue ∧ (i ≠ .cstatrst → t.cstat = s.cstat)

/-- No step and no instruction changes the parameters.
10_state.md R47: `MODE` cannot change while the core runs; the parameters stand in the state by log entry 1. -/
def Obligations.ParametersAreFixed : Prop :=
  ∀ s t : State, (step s = .next t → t.params = s.params) ∧
    (∀ i, exec i s = .next t → t.params = s.params)

/-- Only SETOBS changes an observer bit.
10_state.md R46: SETOBS is their only writer. -/
def Obligations.OnlySetobsWritesTheObservers : Prop :=
  ∀ (i : Instr) (s t : State), exec i s = .next t → (∀ k v, i ≠ .setobs k v) → t.dec.obs = s.dec.obs

/-- Frozen error counters never move, free ones never fall, and missed_samples is never counted.
10_state.md R42 for both policies, for every value of the free rises; R43. -/
def Obligations.ErrorCountersFollowThePolicy : Prop :=
  ∀ (i : Instr) (s t : State), exec i s = .next t →
    (i ≠ .dstatrst →
      (s.params.errcntPolicy = .frozen →
        t.dstat.timingErrors = s.dstat.timingErrors ∧ t.dstat.syncErrors = s.dstat.syncErrors ∧
        t.dstat.dataErrors = s.dstat.dataErrors) ∧
      s.dstat.timingErrors ≤ t.dstat.timingErrors ∧ s.dstat.syncErrors ≤ t.dstat.syncErrors ∧
      s.dstat.dataErrors ≤ t.dstat.dataErrors ∧
      (fits s.params.statw s.dstat.timingErrors = true → fits s.params.statw t.dstat.timingErrors = true) ∧
      (fits s.params.statw s.dstat.syncErrors = true → fits s.params.statw t.dstat.syncErrors = true) ∧
      (fits s.params.statw s.dstat.dataErrors = true → fits s.params.statw t.dstat.dataErrors = true)) ∧
    (i ≠ .cstatrst → t.cstat.missedSamples = s.cstat.missedSamples)

/-- No instruction but their reset lowers a statistics counter.
10_state.md R40: monotonic counters, never decremented. -/
def Obligations.StatisticsNeverFall : Prop :=
  ∀ (i : Instr) (s t : State), exec i s = .next t →
    (i ≠ .dstatrst → s.dstat.framesReceived ≤ t.dstat.framesReceived ∧
      s.dstat.linesReceived ≤ t.dstat.linesReceived ∧ s.dstat.pixelsReceived ≤ t.dstat.pixelsReceived) ∧
    (i ≠ .cstatrst → s.cstat.interruptsHandled ≤ t.cstat.interruptsHandled ∧
      s.cstat.bytesCaptured ≤ t.cstat.bytesCaptured ∧ s.cstat.bufferOverflows ≤ t.cstat.bufferOverflows)

/-- An instruction touches no agent's context but that of the agent that runs it, and no output is taken back.
60_exceptions.md R292: later steps do not change a record already in the trace.  The agents' contexts, the turns, the running
agent and the list of results are the model's own fields (log entries 4 and 8). -/
def Obligations.OtherAgentsAreLeftAlone : Prop :=
  ∀ (i : Instr) (s t : State), exec i s = .next t →
    (∀ a, a ≠ s.running → ctxOf t a = ctxOf s a) ∧ t.turns = s.turns ∧ t.running = s.running ∧
    s.trace <+: t.trace ∧ s.results <+: t.results
end

