-- ==== Sys2Proof/Laws/Encoding.lean ====
section
/-! SUPPORT. The bits of a concatenation, and the two fields of a command word. -/

namespace Sys2Proof.Laws

open Sys2Proof

/-- The bits of `{a, b}`. -/
theorem getLsbD_cat (k : Nat) {m n : Nat} (a : BitVec m) (b : BitVec n) (i : Nat) :
    (cat k a b).getLsbD i = (decide (i < k) && (if i < n then b.getLsbD i else a.getLsbD (i - n))) := by
  unfold cat
  by_cases hn : i < n
  · simp [hn]
  · by_cases hk : i < k
    · simp [hn, hk, BitVec.getLsbD_of_ge b i (by omega)]
    · simp [hk]

/-- The select code of a command word is the one it is built from. -/
theorem opField_commandWord (c : BitVec 4) (a : Arg) : opField (commandWord c a) = c := by
  unfold opField commandWord
  apply BitVec.eq_of_getLsbD_eq
  intro i hi
  simp only [BitVec.getLsbD_extractLsb', getLsbD_cat, hi, decide_true, Bool.true_and,
    show ¬ 24 + i < 24 by omega, if_false, show 24 + i < 28 by omega, Nat.add_sub_cancel_left]

/-- The operand field of a command word is the one it is built from. -/
theorem argField_commandWord (c : BitVec 4) (a : Arg) : argField (commandWord c a) = a := by
  unfold argField commandWord
  apply BitVec.eq_of_getLsbD_eq
  intro i hi
  simp [getLsbD_cat, hi]
  omega

end Sys2Proof.Laws
end

