-- ==== Sys2Proof/Laws/Memory.lean ====
section
/-! SUPPORT. The queue memory: a read after a write, and the canonical form. -/

namespace Sys2Proof.Machine

open Sys2Proof

@[simp] theorem find_nil (a : Nat) : Memory.find [] a = none := rfl

@[simp] theorem find_cons (k : Nat) (v : Byte) (rest : Memory) (a : Nat) :
    Memory.find ((k, v) :: rest) a = if k = a then some v else Memory.find rest a := rfl

/-- A read of the cell just written gives the value written. -/
@[simp] theorem find_store_same (m : Memory) (a : Nat) (v : Byte) :
    Memory.find (Memory.store m a v) a = some v := by
  induction m with
  | nil => simp [Memory.store]
  | cons c rest ih =>
    obtain ⟨k, w⟩ := c
    simp only [Memory.store]
    split
    · simp
    · split
      · simp
      · rename_i _ hne
        simp [ih, Ne.symm hne]

/-- A write leaves every other cell alone. -/
theorem find_store_other (m : Memory) {a b : Nat} (h : b ≠ a) (v : Byte) :
    Memory.find (Memory.store m a v) b = Memory.find m b := by
  induction m with
  | nil => simp [Memory.store, Ne.symm h]
  | cons c rest ih =>
    obtain ⟨k, w⟩ := c
    simp only [Memory.store]
    split
    · simp [Ne.symm h]
    · split
      · rename_i _ heq
        subst heq
        simp [Ne.symm h]
      · simp [ih]

/-- The cells of a memory after a write: the new one and old ones. -/
theorem mem_store {m : Memory} {a : Nat} {v : Byte} {c : Host.Cell} (h : c ∈ Memory.store m a v) :
    c = (a, v) ∨ c ∈ m := by
  induction m with
  | nil => simpa [Memory.store] using h
  | cons d rest ih =>
    obtain ⟨k, w⟩ := d
    simp only [Memory.store] at h
    split at h
    · simpa using h
    · split at h
      · rcases List.mem_cons.1 h with h | h
        · exact .inl h
        · exact .inr (List.mem_cons_of_mem _ h)
      · rcases List.mem_cons.1 h with h | h
        · exact .inr (h ▸ List.mem_cons_self)
        · rcases ih h with h | h
          · exact .inl h
          · exact .inr (List.mem_cons_of_mem _ h)

/-- A write keeps the canonical form. -/
theorem store_wf {m : Memory} (h : Memory.wf m = true) (a : Nat) (v : Byte) :
    Memory.wf (Memory.store m a v) = true := by
  induction m with
  | nil => rfl
  | cons c rest ih =>
    obtain ⟨k, w⟩ := c
    simp only [Memory.wf, Bool.and_eq_true, List.all_eq_true, decide_eq_true_eq] at h
    obtain ⟨hk, hrest⟩ := h
    simp only [Memory.store]
    split
    · rename_i hlt
      simp only [Memory.wf, Bool.and_eq_true, List.all_eq_true, decide_eq_true_eq]
      refine ⟨fun c hc => ?_, hk, hrest⟩
      rcases List.mem_cons.1 hc with rfl | hc
      · exact hlt
      · exact Nat.lt_trans hlt (hk c hc)
    · split
      · rename_i _ heq
        subst heq
        simp only [Memory.wf, Bool.and_eq_true, List.all_eq_true, decide_eq_true_eq]
        exact ⟨hk, hrest⟩
      · rename_i hnlt hne
        simp only [Memory.wf, Bool.and_eq_true, List.all_eq_true, decide_eq_true_eq]
        refine ⟨fun c hc => ?_, ih hrest⟩
        rcases mem_store hc with rfl | hc
        · show k < a; omega
        · exact hk c hc

/-- `MemWrite` keeps the canonical form. -/
theorem memWrite_wf {p : Params} {a : Nat} {v : Byte} {m m' : Memory} (h : memWrite p a v m = .ok m')
    (hm : Memory.wf m = true) : Memory.wf m' = true := by
  unfold memWrite at h
  split at h
  · cases h; exact store_wf hm a v
  · cases h

@[simp] theorem cellValue_store_same (m : Memory) (a : Nat) (v : Byte) :
    cellValue (Memory.store m a v) a = v := by simp [cellValue]

theorem cellValue_store_other (m : Memory) {a b : Nat} (h : b ≠ a) (v : Byte) :
    cellValue (Memory.store m a v) b = cellValue m b := by simp [cellValue, find_store_other m h]

end Sys2Proof.Machine
end

