-- ==== Sys2Proof/Laws/State.lean ====
section
/-! SUPPORT. What each small operation leaves alone, one lemma per field of the state. -/

namespace Sys2Proof.Machine

open Sys2Proof

/-! `emit` writes the trace and nothing else -/
@[simp] theorem emit_params (on : Bool) (e : Event) (s : State) : (emit on e s).params = s.params := rfl
@[simp] theorem emit_dec (on : Bool) (e : Event) (s : State) : (emit on e s).dec = s.dec := rfl
@[simp] theorem emit_queue (on : Bool) (e : Event) (s : State) : (emit on e s).queue = s.queue := rfl
@[simp] theorem emit_dstat (on : Bool) (e : Event) (s : State) : (emit on e s).dstat = s.dstat := rfl
@[simp] theorem emit_cstat (on : Bool) (e : Event) (s : State) : (emit on e s).cstat = s.cstat := rfl
@[simp] theorem emit_results (on : Bool) (e : Event) (s : State) : (emit on e s).results = s.results := rfl
@[simp] theorem emit_producer (on : Bool) (e : Event) (s : State) : (emit on e s).producer = s.producer := rfl
@[simp] theorem emit_consumer (on : Bool) (e : Event) (s : State) : (emit on e s).consumer = s.consumer := rfl
@[simp] theorem emit_host (on : Bool) (e : Event) (s : State) : (emit on e s).host = s.host := rfl
@[simp] theorem emit_turns (on : Bool) (e : Event) (s : State) : (emit on e s).turns = s.turns := rfl
@[simp] theorem emit_running (on : Bool) (e : Event) (s : State) : (emit on e s).running = s.running := rfl
@[simp] theorem emit_draws (on : Bool) (e : Event) (s : State) : (emit on e s).draws = s.draws := rfl

@[simp] theorem emit_trace (on : Bool) (e : Event) (s : State) :
    (emit on e s).trace = s.trace ++ (if on then [e] else []) := rfl

/-! `giveResult` writes the results and nothing else -/
@[simp] theorem giveResult_params (r : Result) (s : State) : (giveResult r s).params = s.params := rfl
@[simp] theorem giveResult_dec (r : Result) (s : State) : (giveResult r s).dec = s.dec := rfl
@[simp] theorem giveResult_queue (r : Result) (s : State) : (giveResult r s).queue = s.queue := rfl
@[simp] theorem giveResult_dstat (r : Result) (s : State) : (giveResult r s).dstat = s.dstat := rfl
@[simp] theorem giveResult_cstat (r : Result) (s : State) : (giveResult r s).cstat = s.cstat := rfl
@[simp] theorem giveResult_trace (r : Result) (s : State) : (giveResult r s).trace = s.trace := rfl
@[simp] theorem giveResult_producer (r : Result) (s : State) : (giveResult r s).producer = s.producer := rfl
@[simp] theorem giveResult_consumer (r : Result) (s : State) : (giveResult r s).consumer = s.consumer := rfl
@[simp] theorem giveResult_host (r : Result) (s : State) : (giveResult r s).host = s.host := rfl
@[simp] theorem giveResult_turns (r : Result) (s : State) : (giveResult r s).turns = s.turns := rfl
@[simp] theorem giveResult_running (r : Result) (s : State) : (giveResult r s).running = s.running := rfl
@[simp] theorem giveResult_draws (r : Result) (s : State) : (giveResult r s).draws = s.draws := rfl

@[simp] theorem giveResult_results (r : Result) (s : State) :
    (giveResult r s).results = s.results ++ [r] := rfl

/-! `drawn` advances the counter of free values and nothing else -/
@[simp] theorem drawn_params (s : State) : (drawn s).params = s.params := rfl
@[simp] theorem drawn_dec (s : State) : (drawn s).dec = s.dec := rfl
@[simp] theorem drawn_queue (s : State) : (drawn s).queue = s.queue := rfl
@[simp] theorem drawn_dstat (s : State) : (drawn s).dstat = s.dstat := rfl
@[simp] theorem drawn_cstat (s : State) : (drawn s).cstat = s.cstat := rfl
@[simp] theorem drawn_trace (s : State) : (drawn s).trace = s.trace := rfl
@[simp] theorem drawn_results (s : State) : (drawn s).results = s.results := rfl
@[simp] theorem drawn_producer (s : State) : (drawn s).producer = s.producer := rfl
@[simp] theorem drawn_consumer (s : State) : (drawn s).consumer = s.consumer := rfl
@[simp] theorem drawn_host (s : State) : (drawn s).host = s.host := rfl
@[simp] theorem drawn_turns (s : State) : (drawn s).turns = s.turns := rfl
@[simp] theorem drawn_running (s : State) : (drawn s).running = s.running := rfl

@[simp] theorem drawn_draws (s : State) : (drawn s).draws = s.draws + 1 := rfl

/-! `countOverflow` writes one Capture Statistics counter -/
@[simp] theorem countOverflow_params (s : State) : (countOverflow s).params = s.params := rfl
@[simp] theorem countOverflow_dec (s : State) : (countOverflow s).dec = s.dec := rfl
@[simp] theorem countOverflow_queue (s : State) : (countOverflow s).queue = s.queue := rfl
@[simp] theorem countOverflow_dstat (s : State) : (countOverflow s).dstat = s.dstat := rfl
@[simp] theorem countOverflow_trace (s : State) : (countOverflow s).trace = s.trace := rfl
@[simp] theorem countOverflow_results (s : State) : (countOverflow s).results = s.results := rfl
@[simp] theorem countOverflow_producer (s : State) : (countOverflow s).producer = s.producer := rfl
@[simp] theorem countOverflow_consumer (s : State) : (countOverflow s).consumer = s.consumer := rfl
@[simp] theorem countOverflow_host (s : State) : (countOverflow s).host = s.host := rfl
@[simp] theorem countOverflow_turns (s : State) : (countOverflow s).turns = s.turns := rfl
@[simp] theorem countOverflow_running (s : State) : (countOverflow s).running = s.running := rfl
@[simp] theorem countOverflow_draws (s : State) : (countOverflow s).draws = s.draws := rfl

/-! `countInterrupt` writes one Capture Statistics counter -/
@[simp] theorem countInterrupt_params (s : State) : (countInterrupt s).params = s.params := rfl
@[simp] theorem countInterrupt_dec (s : State) : (countInterrupt s).dec = s.dec := rfl
@[simp] theorem countInterrupt_queue (s : State) : (countInterrupt s).queue = s.queue := rfl
@[simp] theorem countInterrupt_dstat (s : State) : (countInterrupt s).dstat = s.dstat := rfl
@[simp] theorem countInterrupt_trace (s : State) : (countInterrupt s).trace = s.trace := rfl
@[simp] theorem countInterrupt_results (s : State) : (countInterrupt s).results = s.results := rfl
@[simp] theorem countInterrupt_producer (s : State) : (countInterrupt s).producer = s.producer := rfl
@[simp] theorem countInterrupt_consumer (s : State) : (countInterrupt s).consumer = s.consumer := rfl
@[simp] theorem countInterrupt_host (s : State) : (countInterrupt s).host = s.host := rfl
@[simp] theorem countInterrupt_turns (s : State) : (countInterrupt s).turns = s.turns := rfl
@[simp] theorem countInterrupt_running (s : State) : (countInterrupt s).running = s.running := rfl
@[simp] theorem countInterrupt_draws (s : State) : (countInterrupt s).draws = s.draws := rfl

/-! `countCaptured` writes one Capture Statistics counter -/
@[simp] theorem countCaptured_params (s : State) : (countCaptured s).params = s.params := rfl
@[simp] theorem countCaptured_dec (s : State) : (countCaptured s).dec = s.dec := rfl
@[simp] theorem countCaptured_queue (s : State) : (countCaptured s).queue = s.queue := rfl
@[simp] theorem countCaptured_dstat (s : State) : (countCaptured s).dstat = s.dstat := rfl
@[simp] theorem countCaptured_trace (s : State) : (countCaptured s).trace = s.trace := rfl
@[simp] theorem countCaptured_results (s : State) : (countCaptured s).results = s.results := rfl
@[simp] theorem countCaptured_producer (s : State) : (countCaptured s).producer = s.producer := rfl
@[simp] theorem countCaptured_consumer (s : State) : (countCaptured s).consumer = s.consumer := rfl
@[simp] theorem countCaptured_host (s : State) : (countCaptured s).host = s.host := rfl
@[simp] theorem countCaptured_turns (s : State) : (countCaptured s).turns = s.turns := rfl
@[simp] theorem countCaptured_running (s : State) : (countCaptured s).running = s.running := rfl
@[simp] theorem countCaptured_draws (s : State) : (countCaptured s).draws = s.draws := rfl

/-! `stampService` writes the service-time fields and takes a free value -/
@[simp] theorem stampService_params (s : State) : (stampService s).params = s.params := rfl
@[simp] theorem stampService_dec (s : State) : (stampService s).dec = s.dec := rfl
@[simp] theorem stampService_queue (s : State) : (stampService s).queue = s.queue := rfl
@[simp] theorem stampService_dstat (s : State) : (stampService s).dstat = s.dstat := rfl
@[simp] theorem stampService_trace (s : State) : (stampService s).trace = s.trace := rfl
@[simp] theorem stampService_results (s : State) : (stampService s).results = s.results := rfl
@[simp] theorem stampService_producer (s : State) : (stampService s).producer = s.producer := rfl
@[simp] theorem stampService_consumer (s : State) : (stampService s).consumer = s.consumer := rfl
@[simp] theorem stampService_host (s : State) : (stampService s).host = s.host := rfl
@[simp] theorem stampService_turns (s : State) : (stampService s).turns = s.turns := rfl
@[simp] theorem stampService_running (s : State) : (stampService s).running = s.running := rfl

/-! `setCtx` writes one agent's context -/
@[simp] theorem setCtx_params (a : Agent) (c : AgentCtx) (s : State) : (setCtx a c s).params = s.params := by
  cases a <;> rfl
@[simp] theorem setCtx_dec (a : Agent) (c : AgentCtx) (s : State) : (setCtx a c s).dec = s.dec := by
  cases a <;> rfl
@[simp] theorem setCtx_queue (a : Agent) (c : AgentCtx) (s : State) : (setCtx a c s).queue = s.queue := by
  cases a <;> rfl
@[simp] theorem setCtx_dstat (a : Agent) (c : AgentCtx) (s : State) : (setCtx a c s).dstat = s.dstat := by
  cases a <;> rfl
@[simp] theorem setCtx_cstat (a : Agent) (c : AgentCtx) (s : State) : (setCtx a c s).cstat = s.cstat := by
  cases a <;> rfl
@[simp] theorem setCtx_trace (a : Agent) (c : AgentCtx) (s : State) : (setCtx a c s).trace = s.trace := by
  cases a <;> rfl
@[simp] theorem setCtx_results (a : Agent) (c : AgentCtx) (s : State) : (setCtx a c s).results = s.results := by
  cases a <;> rfl
@[simp] theorem setCtx_turns (a : Agent) (c : AgentCtx) (s : State) : (setCtx a c s).turns = s.turns := by
  cases a <;> rfl
@[simp] theorem setCtx_running (a : Agent) (c : AgentCtx) (s : State) : (setCtx a c s).running = s.running := by
  cases a <;> rfl
@[simp] theorem setCtx_draws (a : Agent) (c : AgentCtx) (s : State) : (setCtx a c s).draws = s.draws := by
  cases a <;> rfl

@[simp] theorem ctxOf_setCtx_same (a : Agent) (c : AgentCtx) (s : State) : ctxOf (setCtx a c s) a = c := by
  cases a <;> rfl
theorem ctxOf_setCtx_other {a b : Agent} (h : b ≠ a) (c : AgentCtx) (s : State) :
    ctxOf (setCtx a c s) b = ctxOf s b := by
  cases a <;> cases b <;> first | rfl | exact absurd rfl h
@[simp] theorem setCtx_ctxOf (a : Agent) (s : State) : setCtx a (ctxOf s a) s = s := by
  cases a <;> rfl
@[simp] theorem setCtx_setCtx (a : Agent) (c d : AgentCtx) (s : State) : setCtx a d (setCtx a c s) = setCtx a d s := by
  cases a <;> rfl

/-! `stage` writes the running agent's context -/
@[simp] theorem stage_params (b : Byte) (s : State) : (stage b s).params = s.params := by
  unfold stage; simp
@[simp] theorem stage_dec (b : Byte) (s : State) : (stage b s).dec = s.dec := by
  unfold stage; simp
@[simp] theorem stage_queue (b : Byte) (s : State) : (stage b s).queue = s.queue := by
  unfold stage; simp
@[simp] theorem stage_dstat (b : Byte) (s : State) : (stage b s).dstat = s.dstat := by
  unfold stage; simp
@[simp] theorem stage_cstat (b : Byte) (s : State) : (stage b s).cstat = s.cstat := by
  unfold stage; simp
@[simp] theorem stage_trace (b : Byte) (s : State) : (stage b s).trace = s.trace := by
  unfold stage; simp
@[simp] theorem stage_results (b : Byte) (s : State) : (stage b s).results = s.results := by
  unfold stage; simp
@[simp] theorem stage_turns (b : Byte) (s : State) : (stage b s).turns = s.turns := by
  unfold stage; simp
@[simp] theorem stage_running (b : Byte) (s : State) : (stage b s).running = s.running := by
  unfold stage; simp
@[simp] theorem stage_draws (b : Byte) (s : State) : (stage b s).draws = s.draws := by
  unfold stage; simp

/-! `stageUnless` writes at most the running agent's context -/
@[simp] theorem stageUnless_params (tf : Bool) (b : Byte) (s : State) : (stageUnless tf b s).params = s.params := by
  unfold stageUnless; split <;> simp
@[simp] theorem stageUnless_dec (tf : Bool) (b : Byte) (s : State) : (stageUnless tf b s).dec = s.dec := by
  unfold stageUnless; split <;> simp
@[simp] theorem stageUnless_queue (tf : Bool) (b : Byte) (s : State) : (stageUnless tf b s).queue = s.queue := by
  unfold stageUnless; split <;> simp
@[simp] theorem stageUnless_dstat (tf : Bool) (b : Byte) (s : State) : (stageUnless tf b s).dstat = s.dstat := by
  unfold stageUnless; split <;> simp
@[simp] theorem stageUnless_cstat (tf : Bool) (b : Byte) (s : State) : (stageUnless tf b s).cstat = s.cstat := by
  unfold stageUnless; split <;> simp
@[simp] theorem stageUnless_trace (tf : Bool) (b : Byte) (s : State) : (stageUnless tf b s).trace = s.trace := by
  unfold stageUnless; split <;> simp
@[simp] theorem stageUnless_results (tf : Bool) (b : Byte) (s : State) : (stageUnless tf b s).results = s.results := by
  unfold stageUnless; split <;> simp
@[simp] theorem stageUnless_turns (tf : Bool) (b : Byte) (s : State) : (stageUnless tf b s).turns = s.turns := by
  unfold stageUnless; split <;> simp
@[simp] theorem stageUnless_running (tf : Bool) (b : Byte) (s : State) : (stageUnless tf b s).running = s.running := by
  unfold stageUnless; split <;> simp
@[simp] theorem stageUnless_draws (tf : Bool) (b : Byte) (s : State) : (stageUnless tf b s).draws = s.draws := by
  unfold stageUnless; split <;> simp
@[simp] theorem stageUnless_service (b : Byte) (s : State) : stageUnless true b s = s := rfl
@[simp] theorem stageUnless_drain (b : Byte) (s : State) : stageUnless false b s = stage b s := rfl

/-! `setDrain` writes the running agent's context -/
@[simp] theorem setDrain_params (d : Option Drain) (s : State) : (setDrain d s).params = s.params := by
  unfold setDrain; simp
@[simp] theorem setDrain_dec (d : Option Drain) (s : State) : (setDrain d s).dec = s.dec := by
  unfold setDrain; simp
@[simp] theorem setDrain_queue (d : Option Drain) (s : State) : (setDrain d s).queue = s.queue := by
  unfold setDrain; simp
@[simp] theorem setDrain_dstat (d : Option Drain) (s : State) : (setDrain d s).dstat = s.dstat := by
  unfold setDrain; simp
@[simp] theorem setDrain_cstat (d : Option Drain) (s : State) : (setDrain d s).cstat = s.cstat := by
  unfold setDrain; simp
@[simp] theorem setDrain_trace (d : Option Drain) (s : State) : (setDrain d s).trace = s.trace := by
  unfold setDrain; simp
@[simp] theorem setDrain_results (d : Option Drain) (s : State) : (setDrain d s).results = s.results := by
  unfold setDrain; simp
@[simp] theorem setDrain_turns (d : Option Drain) (s : State) : (setDrain d s).turns = s.turns := by
  unfold setDrain; simp
@[simp] theorem setDrain_running (d : Option Drain) (s : State) : (setDrain d s).running = s.running := by
  unfold setDrain; simp
@[simp] theorem setDrain_draws (d : Option Drain) (s : State) : (setDrain d s).draws = s.draws := by
  unfold setDrain; simp

/-! `finishDrain` writes the results and the running agent's context -/
@[simp] theorem finishDrain_params (got : List Byte) (tf : Bool) (s : State) : (finishDrain got tf s).params = s.params := by
  unfold finishDrain; split <;> simp
@[simp] theorem finishDrain_dec (got : List Byte) (tf : Bool) (s : State) : (finishDrain got tf s).dec = s.dec := by
  unfold finishDrain; split <;> simp
@[simp] theorem finishDrain_queue (got : List Byte) (tf : Bool) (s : State) : (finishDrain got tf s).queue = s.queue := by
  unfold finishDrain; split <;> simp
@[simp] theorem finishDrain_dstat (got : List Byte) (tf : Bool) (s : State) : (finishDrain got tf s).dstat = s.dstat := by
  unfold finishDrain; split <;> simp
@[simp] theorem finishDrain_cstat (got : List Byte) (tf : Bool) (s : State) : (finishDrain got tf s).cstat = s.cstat := by
  unfold finishDrain; split <;> simp
@[simp] theorem finishDrain_trace (got : List Byte) (tf : Bool) (s : State) : (finishDrain got tf s).trace = s.trace := by
  unfold finishDrain; split <;> simp
@[simp] theorem finishDrain_turns (got : List Byte) (tf : Bool) (s : State) : (finishDrain got tf s).turns = s.turns := by
  unfold finishDrain; split <;> simp
@[simp] theorem finishDrain_running (got : List Byte) (tf : Bool) (s : State) : (finishDrain got tf s).running = s.running := by
  unfold finishDrain; split <;> simp
@[simp] theorem finishDrain_draws (got : List Byte) (tf : Bool) (s : State) : (finishDrain got tf s).draws = s.draws := by
  unfold finishDrain; split <;> simp

@[simp] theorem finishDrain_results (got : List Byte) (tf : Bool) (s : State) :
    (finishDrain got tf s).results = s.results ++ [.drained got] := by
  unfold finishDrain; split <;> simp

/-! `offer` writes the turns and one agent's requests -/
@[simp] theorem offer_params (m : Move) (s : State) : (offer m s).params = s.params := by
  unfold offer; simp
@[simp] theorem offer_dec (m : Move) (s : State) : (offer m s).dec = s.dec := by
  unfold offer; simp
@[simp] theorem offer_queue (m : Move) (s : State) : (offer m s).queue = s.queue := by
  unfold offer; simp
@[simp] theorem offer_dstat (m : Move) (s : State) : (offer m s).dstat = s.dstat := by
  unfold offer; simp
@[simp] theorem offer_cstat (m : Move) (s : State) : (offer m s).cstat = s.cstat := by
  unfold offer; simp
@[simp] theorem offer_trace (m : Move) (s : State) : (offer m s).trace = s.trace := by
  unfold offer; simp
@[simp] theorem offer_results (m : Move) (s : State) : (offer m s).results = s.results := by
  unfold offer; simp
@[simp] theorem offer_running (m : Move) (s : State) : (offer m s).running = s.running := by
  unfold offer; simp
@[simp] theorem offer_draws (m : Move) (s : State) : (offer m s).draws = s.draws := by
  unfold offer; simp
@[simp] theorem offer_turns (m : Move) (s : State) : (offer m s).turns = m.agent :: s.turns := by
  unfold offer; simp

/-! `setFsm` writes the Decoder Context only -/
@[simp] theorem setFsm_params (f : Fsm) (s : State) : (setFsm f s).params = s.params := rfl
@[simp] theorem setFsm_queue (f : Fsm) (s : State) : (setFsm f s).queue = s.queue := rfl
@[simp] theorem setFsm_dstat (f : Fsm) (s : State) : (setFsm f s).dstat = s.dstat := rfl
@[simp] theorem setFsm_cstat (f : Fsm) (s : State) : (setFsm f s).cstat = s.cstat := rfl
@[simp] theorem setFsm_trace (f : Fsm) (s : State) : (setFsm f s).trace = s.trace := rfl
@[simp] theorem setFsm_results (f : Fsm) (s : State) : (setFsm f s).results = s.results := rfl
@[simp] theorem setFsm_producer (f : Fsm) (s : State) : (setFsm f s).producer = s.producer := rfl
@[simp] theorem setFsm_consumer (f : Fsm) (s : State) : (setFsm f s).consumer = s.consumer := rfl
@[simp] theorem setFsm_host (f : Fsm) (s : State) : (setFsm f s).host = s.host := rfl
@[simp] theorem setFsm_turns (f : Fsm) (s : State) : (setFsm f s).turns = s.turns := rfl
@[simp] theorem setFsm_running (f : Fsm) (s : State) : (setFsm f s).running = s.running := rfl
@[simp] theorem setFsm_draws (f : Fsm) (s : State) : (setFsm f s).draws = s.draws := rfl

/-! `demuxY1` writes the Decoder Context only -/
@[simp] theorem demuxY1_params (b : Byte) (s : State) : (demuxY1 b s).params = s.params := rfl
@[simp] theorem demuxY1_queue (b : Byte) (s : State) : (demuxY1 b s).queue = s.queue := rfl
@[simp] theorem demuxY1_dstat (b : Byte) (s : State) : (demuxY1 b s).dstat = s.dstat := rfl
@[simp] theorem demuxY1_cstat (b : Byte) (s : State) : (demuxY1 b s).cstat = s.cstat := rfl
@[simp] theorem demuxY1_trace (b : Byte) (s : State) : (demuxY1 b s).trace = s.trace := rfl
@[simp] theorem demuxY1_results (b : Byte) (s : State) : (demuxY1 b s).results = s.results := rfl
@[simp] theorem demuxY1_producer (b : Byte) (s : State) : (demuxY1 b s).producer = s.producer := rfl
@[simp] theorem demuxY1_consumer (b : Byte) (s : State) : (demuxY1 b s).consumer = s.consumer := rfl
@[simp] theorem demuxY1_host (b : Byte) (s : State) : (demuxY1 b s).host = s.host := rfl
@[simp] theorem demuxY1_turns (b : Byte) (s : State) : (demuxY1 b s).turns = s.turns := rfl
@[simp] theorem demuxY1_running (b : Byte) (s : State) : (demuxY1 b s).running = s.running := rfl
@[simp] theorem demuxY1_draws (b : Byte) (s : State) : (demuxY1 b s).draws = s.draws := rfl

/-! `demuxCb` writes the Decoder Context only -/
@[simp] theorem demuxCb_params (b : Byte) (s : State) : (demuxCb b s).params = s.params := rfl
@[simp] theorem demuxCb_queue (b : Byte) (s : State) : (demuxCb b s).queue = s.queue := rfl
@[simp] theorem demuxCb_dstat (b : Byte) (s : State) : (demuxCb b s).dstat = s.dstat := rfl
@[simp] theorem demuxCb_cstat (b : Byte) (s : State) : (demuxCb b s).cstat = s.cstat := rfl
@[simp] theorem demuxCb_trace (b : Byte) (s : State) : (demuxCb b s).trace = s.trace := rfl
@[simp] theorem demuxCb_results (b : Byte) (s : State) : (demuxCb b s).results = s.results := rfl
@[simp] theorem demuxCb_producer (b : Byte) (s : State) : (demuxCb b s).producer = s.producer := rfl
@[simp] theorem demuxCb_consumer (b : Byte) (s : State) : (demuxCb b s).consumer = s.consumer := rfl
@[simp] theorem demuxCb_host (b : Byte) (s : State) : (demuxCb b s).host = s.host := rfl
@[simp] theorem demuxCb_turns (b : Byte) (s : State) : (demuxCb b s).turns = s.turns := rfl
@[simp] theorem demuxCb_running (b : Byte) (s : State) : (demuxCb b s).running = s.running := rfl
@[simp] theorem demuxCb_draws (b : Byte) (s : State) : (demuxCb b s).draws = s.draws := rfl

/-! `demuxY2` writes the Decoder Context only -/
@[simp] theorem demuxY2_params (b : Byte) (s : State) : (demuxY2 b s).params = s.params := rfl
@[simp] theorem demuxY2_queue (b : Byte) (s : State) : (demuxY2 b s).queue = s.queue := rfl
@[simp] theorem demuxY2_dstat (b : Byte) (s : State) : (demuxY2 b s).dstat = s.dstat := rfl
@[simp] theorem demuxY2_cstat (b : Byte) (s : State) : (demuxY2 b s).cstat = s.cstat := rfl
@[simp] theorem demuxY2_trace (b : Byte) (s : State) : (demuxY2 b s).trace = s.trace := rfl
@[simp] theorem demuxY2_results (b : Byte) (s : State) : (demuxY2 b s).results = s.results := rfl
@[simp] theorem demuxY2_producer (b : Byte) (s : State) : (demuxY2 b s).producer = s.producer := rfl
@[simp] theorem demuxY2_consumer (b : Byte) (s : State) : (demuxY2 b s).consumer = s.consumer := rfl
@[simp] theorem demuxY2_host (b : Byte) (s : State) : (demuxY2 b s).host = s.host := rfl
@[simp] theorem demuxY2_turns (b : Byte) (s : State) : (demuxY2 b s).turns = s.turns := rfl
@[simp] theorem demuxY2_running (b : Byte) (s : State) : (demuxY2 b s).running = s.running := rfl
@[simp] theorem demuxY2_draws (b : Byte) (s : State) : (demuxY2 b s).draws = s.draws := rfl

/-! `storeCr` writes the Decoder Context only -/
@[simp] theorem storeCr_params (b : Byte) (s : State) : (storeCr b s).params = s.params := rfl
@[simp] theorem storeCr_queue (b : Byte) (s : State) : (storeCr b s).queue = s.queue := rfl
@[simp] theorem storeCr_dstat (b : Byte) (s : State) : (storeCr b s).dstat = s.dstat := rfl
@[simp] theorem storeCr_cstat (b : Byte) (s : State) : (storeCr b s).cstat = s.cstat := rfl
@[simp] theorem storeCr_trace (b : Byte) (s : State) : (storeCr b s).trace = s.trace := rfl
@[simp] theorem storeCr_results (b : Byte) (s : State) : (storeCr b s).results = s.results := rfl
@[simp] theorem storeCr_producer (b : Byte) (s : State) : (storeCr b s).producer = s.producer := rfl
@[simp] theorem storeCr_consumer (b : Byte) (s : State) : (storeCr b s).consumer = s.consumer := rfl
@[simp] theorem storeCr_host (b : Byte) (s : State) : (storeCr b s).host = s.host := rfl
@[simp] theorem storeCr_turns (b : Byte) (s : State) : (storeCr b s).turns = s.turns := rfl
@[simp] theorem storeCr_running (b : Byte) (s : State) : (storeCr b s).running = s.running := rfl
@[simp] theorem storeCr_draws (b : Byte) (s : State) : (storeCr b s).draws = s.draws := rfl

/-! `storeFlags` writes the Decoder Context only -/
@[simp] theorem storeFlags_params (n : SyncFlags) (s : State) : (storeFlags n s).params = s.params := rfl
@[simp] theorem storeFlags_queue (n : SyncFlags) (s : State) : (storeFlags n s).queue = s.queue := rfl
@[simp] theorem storeFlags_dstat (n : SyncFlags) (s : State) : (storeFlags n s).dstat = s.dstat := rfl
@[simp] theorem storeFlags_cstat (n : SyncFlags) (s : State) : (storeFlags n s).cstat = s.cstat := rfl
@[simp] theorem storeFlags_trace (n : SyncFlags) (s : State) : (storeFlags n s).trace = s.trace := rfl
@[simp] theorem storeFlags_results (n : SyncFlags) (s : State) : (storeFlags n s).results = s.results := rfl
@[simp] theorem storeFlags_producer (n : SyncFlags) (s : State) : (storeFlags n s).producer = s.producer := rfl
@[simp] theorem storeFlags_consumer (n : SyncFlags) (s : State) : (storeFlags n s).consumer = s.consumer := rfl
@[simp] theorem storeFlags_host (n : SyncFlags) (s : State) : (storeFlags n s).host = s.host := rfl
@[simp] theorem storeFlags_turns (n : SyncFlags) (s : State) : (storeFlags n s).turns = s.turns := rfl
@[simp] theorem storeFlags_running (n : SyncFlags) (s : State) : (storeFlags n s).running = s.running := rfl
@[simp] theorem storeFlags_draws (n : SyncFlags) (s : State) : (storeFlags n s).draws = s.draws := rfl

/-! `savTrue` writes the Decoder Context only -/
@[simp] theorem savTrue_params (s : State) : (savTrue s).params = s.params := rfl
@[simp] theorem savTrue_queue (s : State) : (savTrue s).queue = s.queue := rfl
@[simp] theorem savTrue_dstat (s : State) : (savTrue s).dstat = s.dstat := rfl
@[simp] theorem savTrue_cstat (s : State) : (savTrue s).cstat = s.cstat := rfl
@[simp] theorem savTrue_trace (s : State) : (savTrue s).trace = s.trace := rfl
@[simp] theorem savTrue_results (s : State) : (savTrue s).results = s.results := rfl
@[simp] theorem savTrue_producer (s : State) : (savTrue s).producer = s.producer := rfl
@[simp] theorem savTrue_consumer (s : State) : (savTrue s).consumer = s.consumer := rfl
@[simp] theorem savTrue_host (s : State) : (savTrue s).host = s.host := rfl
@[simp] theorem savTrue_turns (s : State) : (savTrue s).turns = s.turns := rfl
@[simp] theorem savTrue_running (s : State) : (savTrue s).running = s.running := rfl
@[simp] theorem savTrue_draws (s : State) : (savTrue s).draws = s.draws := rfl

/-! `savFalse` writes the Decoder Context only -/
@[simp] theorem savFalse_params (s : State) : (savFalse s).params = s.params := rfl
@[simp] theorem savFalse_queue (s : State) : (savFalse s).queue = s.queue := rfl
@[simp] theorem savFalse_dstat (s : State) : (savFalse s).dstat = s.dstat := rfl
@[simp] theorem savFalse_cstat (s : State) : (savFalse s).cstat = s.cstat := rfl
@[simp] theorem savFalse_trace (s : State) : (savFalse s).trace = s.trace := rfl
@[simp] theorem savFalse_results (s : State) : (savFalse s).results = s.results := rfl
@[simp] theorem savFalse_producer (s : State) : (savFalse s).producer = s.producer := rfl
@[simp] theorem savFalse_consumer (s : State) : (savFalse s).consumer = s.consumer := rfl
@[simp] theorem savFalse_host (s : State) : (savFalse s).host = s.host := rfl
@[simp] theorem savFalse_turns (s : State) : (savFalse s).turns = s.turns := rfl
@[simp] theorem savFalse_running (s : State) : (savFalse s).running = s.running := rfl
@[simp] theorem savFalse_draws (s : State) : (savFalse s).draws = s.draws := rfl

/-! `bumpLine` writes the Decoder Context only -/
@[simp] theorem bumpLine_params (s : State) : (bumpLine s).params = s.params := rfl
@[simp] theorem bumpLine_queue (s : State) : (bumpLine s).queue = s.queue := rfl
@[simp] theorem bumpLine_dstat (s : State) : (bumpLine s).dstat = s.dstat := rfl
@[simp] theorem bumpLine_cstat (s : State) : (bumpLine s).cstat = s.cstat := rfl
@[simp] theorem bumpLine_trace (s : State) : (bumpLine s).trace = s.trace := rfl
@[simp] theorem bumpLine_results (s : State) : (bumpLine s).results = s.results := rfl
@[simp] theorem bumpLine_producer (s : State) : (bumpLine s).producer = s.producer := rfl
@[simp] theorem bumpLine_consumer (s : State) : (bumpLine s).consumer = s.consumer := rfl
@[simp] theorem bumpLine_host (s : State) : (bumpLine s).host = s.host := rfl
@[simp] theorem bumpLine_turns (s : State) : (bumpLine s).turns = s.turns := rfl
@[simp] theorem bumpLine_running (s : State) : (bumpLine s).running = s.running := rfl
@[simp] theorem bumpLine_draws (s : State) : (bumpLine s).draws = s.draws := rfl

/-! `endGroup` writes the Decoder Context and one Decoder Statistics counter -/
@[simp] theorem endGroup_params (s : State) : (endGroup s).params = s.params := rfl
@[simp] theorem endGroup_queue (s : State) : (endGroup s).queue = s.queue := rfl
@[simp] theorem endGroup_cstat (s : State) : (endGroup s).cstat = s.cstat := rfl
@[simp] theorem endGroup_trace (s : State) : (endGroup s).trace = s.trace := rfl
@[simp] theorem endGroup_results (s : State) : (endGroup s).results = s.results := rfl
@[simp] theorem endGroup_producer (s : State) : (endGroup s).producer = s.producer := rfl
@[simp] theorem endGroup_consumer (s : State) : (endGroup s).consumer = s.consumer := rfl
@[simp] theorem endGroup_host (s : State) : (endGroup s).host = s.host := rfl
@[simp] theorem endGroup_turns (s : State) : (endGroup s).turns = s.turns := rfl
@[simp] theorem endGroup_running (s : State) : (endGroup s).running = s.running := rfl
@[simp] theorem endGroup_draws (s : State) : (endGroup s).draws = s.draws := rfl

/-! `applyErrorPolicy` writes the three error counters and takes free values -/
@[simp] theorem applyErrorPolicy_params (s : State) : (applyErrorPolicy s).params = s.params := by
  unfold applyErrorPolicy; split <;> rfl
@[simp] theorem applyErrorPolicy_dec (s : State) : (applyErrorPolicy s).dec = s.dec := by
  unfold applyErrorPolicy; split <;> rfl
@[simp] theorem applyErrorPolicy_queue (s : State) : (applyErrorPolicy s).queue = s.queue := by
  unfold applyErrorPolicy; split <;> rfl
@[simp] theorem applyErrorPolicy_cstat (s : State) : (applyErrorPolicy s).cstat = s.cstat := by
  unfold applyErrorPolicy; split <;> rfl
@[simp] theorem applyErrorPolicy_trace (s : State) : (applyErrorPolicy s).trace = s.trace := by
  unfold applyErrorPolicy; split <;> rfl
@[simp] theorem applyErrorPolicy_results (s : State) : (applyErrorPolicy s).results = s.results := by
  unfold applyErrorPolicy; split <;> rfl
@[simp] theorem applyErrorPolicy_producer (s : State) : (applyErrorPolicy s).producer = s.producer := by
  unfold applyErrorPolicy; split <;> rfl
@[simp] theorem applyErrorPolicy_consumer (s : State) : (applyErrorPolicy s).consumer = s.consumer := by
  unfold applyErrorPolicy; split <;> rfl
@[simp] theorem applyErrorPolicy_host (s : State) : (applyErrorPolicy s).host = s.host := by
  unfold applyErrorPolicy; split <;> rfl
@[simp] theorem applyErrorPolicy_turns (s : State) : (applyErrorPolicy s).turns = s.turns := by
  unfold applyErrorPolicy; split <;> rfl
@[simp] theorem applyErrorPolicy_running (s : State) : (applyErrorPolicy s).running = s.running := by
  unfold applyErrorPolicy; split <;> rfl

end Sys2Proof.Machine
end

