-- ==== Sys2Proof/Laws/Ops.lean ====
section
/-! SUPPORT. One lemma per shared operation that says what it can do. -/

namespace Sys2Proof.Machine

open Sys2Proof

/-! ### Counters -/

theorem le_inc (w : Width) (c : Nat) : c ≤ inc w c := by
  unfold inc; split
  · split <;> omega
  · omega

@[simp] theorem fits_bits (n c : Nat) : fits (.bits n) c = true ↔ c < 2 ^ n := decide_eq_true_iff

@[simp] theorem fits_unbounded (c : Nat) : fits .unbounded c = true := rfl

theorem inc_fits {w : Width} {c : Nat} (h : fits w c = true) : fits w (inc w c) = true := by
  cases w with
  | bits n =>
    rw [fits_bits] at *
    unfold inc
    simp only
    split <;> omega
  | unbounded => rfl

theorem cut_fits (w : Width) (v : Nat) : fits w (cut w v) = true := by
  cases w with
  | bits n => rw [fits_bits]; exact Nat.mod_lt v (Nat.two_pow_pos n)
  | unbounded => rfl

theorem notBelow_fits {w : Width} {c : Nat} (h : fits w c = true) (v : Nat) :
    fits w (notBelow w c v) = true := by
  cases w with
  | bits n =>
    rw [fits_bits] at *
    have := Nat.mod_lt v (show 0 < 2 ^ n - c by omega)
    simp only [notBelow, h, if_true]
    omega
  | unbounded => rfl

theorem le_notBelow (w : Width) (c v : Nat) : c ≤ notBelow w c v := by
  unfold notBelow; split
  · split <;> omega
  · omega

theorem zero_fits (w : Width) : fits w 0 = true := by
  cases w with
  | bits n => rw [fits_bits]; exact Nat.two_pow_pos n
  | unbounded => rfl

/-! ### The parameters -/

/-- Every instance has a cell (00_scope.md R9). -/
theorem qcap_pos (p : Params) : 0 < p.qcap := by
  have h := p.ok
  simp only [Setup.legal, Bool.and_eq_true, decide_eq_true_eq] at h
  exact h.1.1.1.1

/-! ### The queue -/

theorem memRead_ok {p : Params} {a : Nat} {m : Memory} (h : a < p.qcap) :
    memRead p a m = .ok (cellValue m a) := by simp [memRead, h]

theorem memWrite_ok {p : Params} {a : Nat} {m : Memory} (h : a < p.qcap) (v : Byte) :
    memWrite p a v m = .ok (Memory.store m a v) := by simp [memWrite, h]

theorem advance_lt {p : Params} (h : 0 < p.qcap) (c : Nat) : advance p c < p.qcap := Nat.mod_lt _ h

theorem advance_of_lt {p : Params} {c : Nat} (h : c + 1 < p.qcap) : advance p c = c + 1 :=
  Nat.mod_eq_of_lt h

theorem advance_of_eq {p : Params} {c : Nat} (h : c + 1 = p.qcap) : advance p c = 0 := by
  simp [advance, h]

theorem count_full {p : Params} {q : Queue} (h : q.full = true) : Queue.count p q = p.qcap := by
  simp [Queue.count, h]

/-- The count of a queue whose write cursor has not wrapped past its read cursor. -/
theorem count_of_le {p : Params} {q : Queue} (hf : q.full = false) (hw : q.wr < p.qcap) (h : q.rd ≤ q.wr) :
    Queue.count p q = q.wr - q.rd := by
  have : ((q.wr : Int) - q.rd) % p.qcap = (q.wr : Int) - q.rd := Int.emod_eq_of_lt (by omega) (by omega)
  simp only [Queue.count, hf, Bool.false_eq_true, if_false, this]
  omega

/-- The count of a queue whose write cursor has wrapped past its read cursor. -/
theorem count_of_lt {p : Params} {q : Queue} (hf : q.full = false) (hr : q.rd < p.qcap) (h : q.wr < q.rd) :
    Queue.count p q = p.qcap + q.wr - q.rd := by
  have : ((q.wr : Int) - q.rd) % p.qcap = (q.wr : Int) - q.rd + p.qcap := by
    rw [← Int.add_emod_right]
    exact Int.emod_eq_of_lt (by omega) (by omega)
  simp only [Queue.count, hf, Bool.false_eq_true, if_false, this]
  omega

theorem isEmpty_iff {q : Queue} : Queue.isEmpty q = true ↔ q.wr = q.rd ∧ q.full = false := by
  simp [Queue.isEmpty]

/-- Everything a PUSH can do. -/
theorem pushStep_cases {b : Byte} {s t : State} {acc : Bool} (h : pushStep b s = .ok (t, acc)) :
    (s.queue.full = true ∧ acc = false ∧ t = countOverflow s) ∨
    (s.queue.full = false ∧ s.queue.wr < s.params.qcap ∧ acc = true ∧
      t = { s with queue :=
            { s.queue with
              buf := Memory.store s.queue.buf s.queue.wr b
              wr := advance s.params s.queue.wr
              full := decide (advance s.params s.queue.wr = s.queue.rd) } }) := by
  unfold pushStep at h
  split at h
  · rename_i hf
    cases h; exact .inl ⟨hf, rfl, rfl⟩
  · rename_i hf
    have hf : s.queue.full = false := by simpa using hf
    unfold Queue.insert memWrite at h
    by_cases hw : s.queue.wr < s.params.qcap
    · simp only [hw, if_true, hf, Bool.false_or] at h
      cases h; exact .inr ⟨hf, hw, rfl, rfl⟩
    · simp only [hw, if_false] at h
      cases h

/-- A PUSH faults only for a write cursor outside the memory (20_memory.md R71). -/
theorem pushStep_ok {b : Byte} {s : State} (h : s.queue.wr < s.params.qcap) :
    ∃ t acc, pushStep b s = .ok (t, acc) := by
  unfold pushStep
  split
  · exact ⟨_, _, rfl⟩
  · simp [Queue.insert, memWrite_ok h]

/-- Everything a POP can do. -/
theorem popStep_cases {s t : State} {data : Option Byte} (h : popStep s = .ok (t, data)) :
    (Queue.isEmpty s.queue = true ∧ data = none ∧ t = s) ∨
    (Queue.isEmpty s.queue = false ∧ s.queue.rd < s.params.qcap ∧
      data = some (cellValue s.queue.buf s.queue.rd) ∧
      t = { s with queue := { s.queue with rd := advance s.params s.queue.rd, full := false } }) := by
  unfold popStep at h
  split at h
  · rename_i he
    cases h; exact .inl ⟨he, rfl, rfl⟩
  · rename_i he
    have he : Queue.isEmpty s.queue = false := by simpa using he
    unfold Queue.remove memRead at h
    by_cases hr : s.queue.rd < s.params.qcap
    · simp only [hr, if_true] at h
      cases h; exact .inr ⟨he, hr, rfl, rfl⟩
    · simp only [hr, if_false] at h
      cases h

/-- A POP faults only for a read cursor outside the memory (20_memory.md R71). -/
theorem popStep_ok {s : State} (h : s.queue.rd < s.params.qcap) : ∃ t d, popStep s = .ok (t, d) := by
  unfold popStep
  split
  · exact ⟨_, _, rfl⟩
  · simp [Queue.remove, memRead_ok h]

/-- Everything one step of a DRAIN can do: end with what it has, or take the byte at `rd` and end or go on. -/
theorem drainStep_cases {d : Drain} {s t : State} (h : drainStep d s = .ok t) :
    ((d.remaining = 0 ∨ Queue.isEmpty s.queue = true) ∧ t = finishDrain d.got d.thenFeed s) ∨
    (∃ left, d.remaining = left + 1 ∧ Queue.isEmpty s.queue = false ∧ s.queue.rd < s.params.qcap ∧
      ∃ b u, b = cellValue s.queue.buf s.queue.rd ∧
        u = stageUnless d.thenFeed b
          { s with queue := { s.queue with rd := advance s.params s.queue.rd, full := false } } ∧
        t = if left = 0 then finishDrain (d.got ++ [b]) d.thenFeed u
            else setDrain (some { remaining := left, got := d.got ++ [b], thenFeed := d.thenFeed }) u) := by
  unfold drainStep at h
  split at h
  · rename_i h0
    cases h; exact .inl ⟨.inl h0, rfl⟩
  · rename_i left hl
    split at h
    · cases h
    · rename_i u hp
      obtain ⟨he, -, rfl⟩ | ⟨-, -, hd, -⟩ := popStep_cases hp
      · cases h; exact .inl ⟨.inr he, rfl⟩
      · cases hd
    · rename_i u b hp
      obtain ⟨-, hd, -⟩ | ⟨he, hr, hd, rfl⟩ := popStep_cases hp
      · cases hd
      · cases hd
        refine .inr ⟨left, hl, he, hr, _, _, rfl, rfl, ?_⟩
        by_cases h0 : left = 0
        · simp only [h0, if_true] at h ⊢; cases h; rfl
        · simp only [h0, if_false] at h ⊢; cases h; rfl

/-- A DRAIN's step faults only for a read cursor outside the memory (20_memory.md R71). -/
theorem drainStep_ok {s : State} (h : s.queue.rd < s.params.qcap) (d : Drain) : ∃ t, drainStep d s = .ok t := by
  unfold drainStep
  split
  · exact ⟨_, rfl⟩
  · obtain ⟨t, r, hp⟩ := popStep_ok h
    simp only [hp]
    cases r with
    | none => exact ⟨_, rfl⟩
    | some b =>
      simp only
      split <;> exact ⟨_, rfl⟩

/-! ### The decoder leaves the rest of the machine alone -/

/-- What a PBYTE step never writes: the parameters, the queue, the Capture Statistics, the results and the
agents (40 R140: "It never touches the queue or the Capture Statistics"). -/
structure DecoderOnly (s t : State) : Prop where
  params : t.params = s.params
  queue : t.queue = s.queue
  cstat : t.cstat = s.cstat
  results : t.results = s.results
  producer : t.producer = s.producer
  consumer : t.consumer = s.consumer
  host : t.host = s.host
  turns : t.turns = s.turns
  running : t.running = s.running
  obs : t.dec.obs = s.dec.obs

theorem DecoderOnly.refl (s : State) : DecoderOnly s s := by constructor <;> rfl

theorem DecoderOnly.trans {s t u : State} (h : DecoderOnly s t) (k : DecoderOnly t u) : DecoderOnly s u :=
  ⟨k.params.trans h.params, k.queue.trans h.queue, k.cstat.trans h.cstat, k.results.trans h.results,
   k.producer.trans h.producer, k.consumer.trans h.consumer, k.host.trans h.host, k.turns.trans h.turns,
   k.running.trans h.running, k.obs.trans h.obs⟩

theorem decoderOnly_emit (on : Bool) (e : Event) (s : State) : DecoderOnly s (emit on e s) := by
  constructor <;> simp

theorem decoderOnly_setFsm (f : Fsm) (s : State) : DecoderOnly s (setFsm f s) := by constructor <;> rfl

theorem decoderOnly_dispatchSample (s : State) : DecoderOnly s (dispatchSample s) :=
  (decoderOnly_emit _ _ _).trans (decoderOnly_emit _ _ _)

theorem decoderOnly_demux (b : Byte) (s : State) : DecoderOnly s (demux b s) := by
  unfold demux
  split
  · constructor <;> rfl
  · constructor <;> rfl
  · constructor <;> rfl
  · have h1 : DecoderOnly s (storeCr b s) := by constructor <;> rfl
    have h2 : DecoderOnly (dispatchSample (storeCr b s)) (endGroup (dispatchSample (storeCr b s))) := by
      constructor <;> rfl
    exact (h1.trans (decoderOnly_dispatchSample _)).trans h2

theorem decoderOnly_offerData (b : Byte) (s : State) : DecoderOnly s (offerData b s) := by
  unfold offerData
  split
  · exact decoderOnly_demux b s
  · exact DecoderOnly.refl s

theorem decoderOnly_vsyncCheck (n : SyncFlags) (s : State) : DecoderOnly s (vsyncCheck n s) := by
  unfold vsyncCheck vsyncRise
  split
  · constructor <;> simp
  · exact DecoderOnly.refl s

theorem decoderOnly_hsyncCheck (n : SyncFlags) (s : State) : DecoderOnly s (hsyncCheck n s) := by
  unfold hsyncCheck hsyncRise bumpLine
  split
  · constructor <;> simp
  · exact DecoderOnly.refl s

theorem decoderOnly_savCheck (n : SyncFlags) (s : State) : DecoderOnly s (savCheck n s) := by
  unfold savCheck
  split <;> constructor <;> rfl

theorem decoderOnly_syncControl (n : SyncFlags) (s : State) : DecoderOnly s (syncControl n s) :=
  ((decoderOnly_vsyncCheck n _).trans (decoderOnly_hsyncCheck n _)).trans
    ((decoderOnly_savCheck n _).trans (by constructor <;> rfl))

theorem decoderOnly_detect (b : Byte) (s : State) : DecoderOnly s (detect b s) := by
  have offer (f : Fsm) (c : Byte) : DecoderOnly s (offerData c (setFsm f s)) :=
    (decoderOnly_setFsm f s).trans (decoderOnly_offerData c _)
  unfold detect
  split
  · split <;> exact offer _ _
  · split <;> exact offer _ _
  · split
    · unfold armFf00Zero
      split
      · exact offer _ _
      · exact decoderOnly_setFsm _ s
    · exact offer _ _
  · exact ((decoderOnly_setFsm _ s).trans (decoderOnly_syncControl _ _)).trans (decoderOnly_setFsm _ _)
  · exact (decoderOnly_syncControl _ s).trans (decoderOnly_setFsm _ _)
  all_goals exact offer _ _

theorem decoderOnly_applyErrorPolicy (s : State) : DecoderOnly s (applyErrorPolicy s) := by
  constructor <;> simp

/-- A PBYTE step writes the Decoder Context, the Decoder Statistics and the trace only. -/
theorem decoderOnly_feedByte (b : Byte) (s : State) : DecoderOnly s (feedByte b s) :=
  (decoderOnly_detect b s).trans (decoderOnly_applyErrorPolicy _)

end Sys2Proof.Machine
end

