-- ==== Sys2Proof/Laws/PerInstr.lean ====
section
/-! SUPPORT. Per instruction: its encoding lies in its own row of spec/opcode_table.json. -/

namespace Sys2Proof.Laws.Row

open Sys2Proof Sys2Proof.Laws

/-- What a row of the table fixes of its word: the select code of a command word, the value of a byte, or only
that the word is a byte. -/
inductive Pattern where
  | op (code : BitVec 4)
  | oneByte (b : Byte)
  | anyByte
deriving DecidableEq, Repr

/-- The match and mask columns of spec/opcode_table.json. -/
def pattern : Instr → Pattern
  | .pbyte _ => .op 0x0#4
  | .reset => .op 0x1#4
  | .setobs _ _ => .op 0x2#4
  | .rdstat _ => .op 0x3#4
  | .push _ => .op 0x4#4
  | .drain _ => .op 0x5#4
  | .avail => .op 0x6#4
  | .pop => .op 0x7#4
  | .sample _ => .op 0x8#4
  | .dstatrst => .op 0x9#4
  | .cstatrst => .op 0xA#4
  | .ycc2rgb _ _ _ => .op 0xB#4
  | .rgb2565 _ _ _ => .op 0xC#4
  | .ycc2gray _ _ _ => .op 0xD#4
  | .unassignedE => .op 0xE#4
  | .unassignedF => .op 0xF#4
  | .idleFf => .oneByte 0xFF#8
  | .idleAny _ => .anyByte
  | .ffZero => .oneByte 0x00#8
  | .ffAny _ => .anyByte
  | .ff00Zero => .oneByte 0x00#8
  | .ff00Any _ => .anyByte
  | .xy _ => .anyByte
  | .xyLate _ => .anyByte
  | .undefAny _ => .anyByte
  | .dataY1 _ => .anyByte
  | .dataCb _ => .anyByte
  | .dataY2 _ => .anyByte
  | .dataCr _ => .anyByte
  | .dataDiscard _ => .anyByte

/-- The word lies in the row. -/
def admits : Pattern → InstrWord → Prop
  | .op c, .command w => opField w = c
  | .oneByte v, .byte b => b = v
  | .anyByte, .byte _ => True
  | .op _, .byte _ | .oneByte _, .command _ | .anyByte, .command _ => False

/-- The encoding of the instruction lies in its row. -/
def Statement (i : Instr) : Prop := admits (pattern i) (encode i)

theorem pbyte (b : Byte) : Statement (.pbyte b) := opField_commandWord _ _
theorem reset : Statement .reset := opField_commandWord _ _
theorem setobs (k : ObsKind) (v : Bool) : Statement (.setobs k v) := opField_commandWord _ _
theorem rdstat (i : BitVec 4) : Statement (.rdstat i) := opField_commandWord _ _
theorem push (b : Byte) : Statement (.push b) := opField_commandWord _ _
theorem drain (n : Nat) : Statement (.drain n) := opField_commandWord _ _
theorem avail : Statement .avail := opField_commandWord _ _
theorem pop : Statement .pop := opField_commandWord _ _
theorem sample (b : Byte) : Statement (.sample b) := opField_commandWord _ _
theorem dstatrst : Statement .dstatrst := opField_commandWord _ _
theorem cstatrst : Statement .cstatrst := opField_commandWord _ _
theorem ycc2rgb (y : Byte) (cb : Byte) (cr : Byte) : Statement (.ycc2rgb y cb cr) := opField_commandWord _ _
theorem rgb2565 (r : Byte) (g : Byte) (b : Byte) : Statement (.rgb2565 r g b) := opField_commandWord _ _
theorem ycc2gray (y : Byte) (cb : Byte) (cr : Byte) : Statement (.ycc2gray y cb cr) := opField_commandWord _ _
theorem unassignedE : Statement .unassignedE := opField_commandWord _ _
theorem unassignedF : Statement .unassignedF := opField_commandWord _ _
theorem idleFf : Statement .idleFf := rfl
theorem idleAny (b : Byte) : Statement (.idleAny b) := trivial
theorem ffZero : Statement .ffZero := rfl
theorem ffAny (b : Byte) : Statement (.ffAny b) := trivial
theorem ff00Zero : Statement .ff00Zero := rfl
theorem ff00Any (b : Byte) : Statement (.ff00Any b) := trivial
theorem xy (f : SyncFlags) : Statement (.xy f) := trivial
theorem xyLate (f : SyncFlags) : Statement (.xyLate f) := trivial
theorem undefAny (b : Byte) : Statement (.undefAny b) := trivial
theorem dataY1 (b : Byte) : Statement (.dataY1 b) := trivial
theorem dataCb (b : Byte) : Statement (.dataCb b) := trivial
theorem dataY2 (b : Byte) : Statement (.dataY2 b) := trivial
theorem dataCr (b : Byte) : Statement (.dataCr b) := trivial
theorem dataDiscard (b : Byte) : Statement (.dataDiscard b) := trivial

end Sys2Proof.Laws.Row
end

