-- ==== Sys2Proof/Tests/Slice0.lean ====
section
/-! SUPPORT. The model's own tests: well-formedness, decoding of words written out from the spec, single steps with
results taken from spec/95_test_vectors.md and the examples of the rules, and a witness for the hypotheses of each
statement. -/

namespace Sys2Proof.Tests

open Sys2Proof Sys2Proof.Machine

/-! ### Helpers -/

/-- The next state of an outcome. -/
def after (o : Host.Outcome State Fault Refusal) : State :=
  match o with
  | .next t => t
  | .fault _ | .refused _ => State.reset

/-- Power-on with the defaults and all four observers on (95_test_vectors.md, conventions). -/
def base : State :=
  { State.reset with
    dec := { State.reset.dec with obs := { pixel := true, rgb := true, line := true, frame := true } } }

/-- `base` with the decoder at `fsm/active/phase`. -/
def at' (f : Fsm) (act : Bool) (ph : Phase) : State :=
  { base with dec := { base.dec with fsm := f, active := act, phase := ph } }

/-- `base` with a queue of capacity `n` and the given cells and cursors. -/
def queued (n : Nat) (buf : Memory) (wr rd : Nat) (full : Bool) (h : 1 ≤ n := by decide) : State :=
  { base with
    params := { base.params with qcap := n, ok := by simp [Setup.legal, Width.legal, base, State.reset, State.powerOn, Params.default, h] }
    queue := { buf := buf, wr := wr, rd := rd, full := full } }

/-- The start state of 95_test_vectors.md section 2.2, with the detector awaiting a control byte. -/
def sync0 : State :=
  { base with dec := { base.dec with fsm := .ff0000, lineCount := 5, pixelCount := 9, phase := .cb } }

/-- What section 2.2's table shows of a state. -/
def syncView (s : State) : List Event × Nat × Nat × Bool × Phase × Nat × Nat :=
  (s.trace, s.dec.lineCount, s.dec.pixelCount, s.dec.active, s.dec.phase, s.dstat.framesReceived,
    s.dstat.linesReceived)

/-! ### Well-formedness: an ill-formed term for each check -/

theorem test_wf_drain_too_wide : wellFormed Params.default (.drain 65536) = false := by decide
theorem test_wf_drain_widest : wellFormed Params.default (.drain 65535) = true := by decide

/-- Parameters whose DRAIN operand is wider than `arg`. -/
def wideParams : Params := { Params.default with maxw := 40, ok := by decide }

theorem test_wf_drain_wide : wellFormed wideParams (.drain 16777216) = true := by decide
theorem test_wf_drain_wider : wellFormed wideParams (.drain 1099511627776) = false := by decide
theorem test_command_word_drain_has_24_bits :
    Instr.appliesIn wideParams (.drain 16777216) (.command 24) = false ∧
    Instr.appliesIn wideParams (.drain 16777215) (.command 24) = true := by decide
theorem test_wf_idleAny_ff : wellFormed Params.default (.idleAny 0xFF#8) = false := by decide
theorem test_wf_ffAny_zero : wellFormed Params.default (.ffAny 0x00#8) = false := by decide
theorem test_wf_ff00Any_zero : wellFormed Params.default (.ff00Any 0x00#8) = false := by decide
theorem test_wf_ffAny_ff : wellFormed Params.default (.ffAny 0xFF#8) = true := by decide

/-! ### Decoding: each row, by a word written out from 30_encoding.md R109, R120 and the encoding column -/

theorem test_decode_pbyte : decodeCommand 16 0b0000000000000000000011111111#28 = .pbyte 0xFF#8 := by decide
theorem test_decode_reset : decodeCommand 16 0b0001000000000000000000000000#28 = .reset := by decide
theorem test_decode_setobs : decodeCommand 16 0b0010000000000000000000000110#28 = .setobs .line true := by decide
theorem test_decode_setobs_off : decodeCommand 16 0b0010000000000000000000000011#28 = .setobs .frame false := by decide
theorem test_decode_rdstat : decodeCommand 16 0b0011000000000000000000001101#28 = .rdstat 13#4 := by decide
theorem test_decode_push : decodeCommand 16 0b0100000000000000000010100101#28 = .push 0xA5#8 := by decide
theorem test_decode_drain : decodeCommand 16 0b0101000000000001000000000011#28 = .drain 4099 := by decide
theorem test_decode_drain_ignores_high_arg : decodeCommand 16 0x5FF0003#28 = .drain 3 := by decide
theorem test_decode_avail : decodeCommand 16 0b0110000000000000000000000000#28 = .avail := by decide
theorem test_decode_pop : decodeCommand 16 0b0111000000000000000000000001#28 = .pop := by decide
theorem test_decode_sample : decodeCommand 16 0b1000000000000000000000010000#28 = .sample 0x10#8 := by decide
theorem test_decode_dstatrst : decodeCommand 16 0b1001000000000000000000000000#28 = .dstatrst := by decide
theorem test_decode_cstatrst : decodeCommand 16 0b1010000000000000000000000000#28 = .cstatrst := by decide
theorem test_decode_ycc2rgb :
    decodeCommand 16 0b1011010100010101101011110000#28 = .ycc2rgb 0x51#8 0x5A#8 0xF0#8 := by decide
theorem test_decode_rgb2565 :
    decodeCommand 16 0b1100000100100011010001010110#28 = .rgb2565 0x12#8 0x34#8 0x56#8 := by decide
theorem test_decode_ycc2gray :
    decodeCommand 16 0b1101111010110101101011110000#28 = .ycc2gray 0xEB#8 0x5A#8 0xF0#8 := by decide
theorem test_decode_unassignedE : decodeCommand 16 0xE000000#28 = .unassignedE := by decide
theorem test_decode_unassignedF : decodeCommand 16 0xF123456#28 = .unassignedF := by decide
theorem test_decode_idle : decodeStream .idle 0b11111111#8 = .idleFf ∧
    decodeStream .idle 0x00#8 = .idleAny 0x00#8 := by decide
theorem test_decode_ff : decodeStream .ff 0b00000000#8 = .ffZero ∧
    decodeStream .ff 0xFF#8 = .ffAny 0xFF#8 := by decide
theorem test_decode_ff00 : decodeStream .ff00 0b00000000#8 = .ff00Zero ∧
    decodeStream .ff00 0xFF#8 = .ff00Any 0xFF#8 := by decide
theorem test_decode_xy : decodeStream .ff0000 0b10101011#8 =
    .xy { field := false, vsync := true, hsync := false, sav := true } := by decide
theorem test_decode_xyLate : decodeStream .controlByte 0b01010000#8 =
    .xyLate { field := true, vsync := false, hsync := true, sav := false } := by decide
theorem test_decode_undef : decodeStream .undef6 0xFF#8 = .undefAny 0xFF#8 := by decide
theorem test_decode_data : decodeData true .y1 1#8 = .dataY1 1#8 ∧ decodeData true .cb 2#8 = .dataCb 2#8 ∧
    decodeData true .y2 3#8 = .dataY2 3#8 ∧ decodeData true .cr 4#8 = .dataCr 4#8 ∧
    decodeData false .cr 5#8 = .dataDiscard 5#8 := by decide
theorem test_decode_rejects_by_name :
    decode (.stream .idle) (.command 0#28) = .error .notAByte ∧
    decode (.command 16) (.byte 0#8) = .error .notACommandWord ∧
    InstrWord.ofBits 16 0 = .error (.noSuchWidth 16) ∧
    InstrWord.ofBits 32 0x10000000 = .error (.valueTooWide 0x10000000) := by decide
theorem test_codes_round_trip :
    (∀ f : BitVec 3, fsmCode (fsmOfCode f) = f) ∧ (∀ c : BitVec 2, phaseCode (phaseOfCode c) = c) := by decide

/-! ### The host's probe: a word placed where the next step runs it -/

theorem test_fetch_word_runs_sample :
    (after (step (State.reset.withFetchWord 32 0x8000055))).cstat.interruptsHandled = 1 := by decide
theorem test_fetch_word_runs_byte :
    (after (step (State.reset.withFetchWord 8 0xFF))).dec.fsm = .ff := by decide

/-! ### Detector (95_test_vectors.md 2.1 and the examples of R141 to R144) -/

theorem test_r141_ff_is_also_data :
    (after (exec (.pbyte 0xFF#8) (at' .idle true .y1))).dec =
      { (at' .ff true .cb).dec with curY := 0xFF#8 } := by decide
theorem test_r142_second_ff_goes_to_idle :
    (after (exec (.pbyte 0xFF#8) (at' .ff false .y1))).dec = (at' .idle false .y1).dec := by decide
theorem test_r143_marker_byte_3_is_not_data :
    (after (exec (.pbyte 0x00#8) (at' .ff00 true .y2))).dec = (at' .ff0000 true .y2).dec := by decide
theorem test_r143_ff_in_ff00_is_no_new_marker :
    (after (exec (.pbyte 0xFF#8) (at' .ff00 false .y1))).dec.fsm = .idle := by decide
theorem test_r144_sav_opens_the_region :
    (after (exec (.pbyte 0x08#8) (at' .ff0000 false .y1))).dec.active = true := by decide
theorem test_r144_control_byte_ff_is_no_marker :
    (after (exec (.pbyte 0xFF#8) (at' .ff0000 true .y1))).dec.fsm = .idle := by decide
theorem test_r146_ff_starts_no_marker :
    (after (exec (.pbyte 0xFF#8) (at' .undef5 false .y1))).dec.fsm = .idle := by decide
theorem test_e12_no_timing_error :
    (after (exec (.pbyte 0x37#8) (at' .ff false .y1))).dstat.timingErrors = 0 := by decide

/-! ### Sync flags (95_test_vectors.md 2.2, the eight codes of the standard) -/

theorem test_sync_80 : syncView (after (exec (.pbyte 0x80#8) sync0)) = ([], 5, 9, false, .cb, 0, 0) := by decide
theorem test_sync_9D :
    syncView (after (exec (.pbyte 0x9D#8) sync0)) = ([.line 5], 6, 0, true, .y1, 0, 1) := by decide
theorem test_sync_AB :
    syncView (after (exec (.pbyte 0xAB#8) sync0)) = ([.frame], 0, 0, true, .y1, 1, 0) := by decide
theorem test_sync_B6 :
    syncView (after (exec (.pbyte 0xB6#8) sync0)) = ([.frame, .line 0], 1, 0, false, .cb, 1, 1) := by decide
theorem test_sync_C7_flags :
    (after (exec (.pbyte 0xC7#8) sync0)).dec.lastFlags =
      { field := true, vsync := false, hsync := false, sav := false } := by decide
theorem test_sync_F1 :
    syncView (after (exec (.pbyte 0xF1#8) sync0)) = ([.frame, .line 0], 1, 0, false, .cb, 1, 1) := by decide
theorem test_sync_level_is_no_edge :
    (after (exec (.pbyte 0x10#8) { sync0 with dec := { sync0.dec with
      lastFlags := { field := false, vsync := false, hsync := true, sav := false } } })).trace = [] := by decide
theorem test_line_count_saturates :
    (after (exec (.pbyte 0x10#8) { sync0 with
      params := { sync0.params with xyw := .bits 2 }, dec := { sync0.dec with lineCount := 3 } })).dec.lineCount = 3 := by
  decide

/-! ### Demultiplexer (examples of R182 to R185, 95_test_vectors.md P1 step 12) -/

theorem test_p1_step_12 :
    (after (exec (.pbyte 0xF0#8) { base with dec := { base.dec with
      active := true, phase := .cr, curY := 0x51#8, curCb := 0x5A#8, lineCount := 1 } })).trace =
      [.pixel 81#8 90#8 240#8 0 1, .rgb 222#8 0#8 0#8 0 1] := by decide
theorem test_r185_counts_without_observers :
    (after (exec (.dataCr 0x80#8) State.reset)).dstat.pixelsReceived = 1 := by decide
theorem test_r182 : (after (exec (.dataY1 0x10#8) base)).dec = { base.dec with curY := 0x10#8, phase := .cb } := by
  decide
theorem test_r183 : (after (exec (.dataCb 0x80#8) base)).dec = { base.dec with curCb := 0x80#8, phase := .y2 } := by
  decide
theorem test_r184 : (after (exec (.dataY2 0xEB#8) base)).dec = { base.dec with curY := 0xEB#8, phase := .cr } := by
  decide
theorem test_m11_discarded : (after (exec (.pbyte 0x10#8) base)).dec = base.dec := by decide

/-! ### Color converter (95_test_vectors.md 2.4) -/

theorem test_color_red : (after (exec (.ycc2rgb 81#8 90#8 240#8) base)).results = [.port 0xDE0000] := by decide
theorem test_color_truncates :
    (after (exec (.ycc2rgb 16#8 129#8 128#8) base)).results = [.port 0x000001] := by decide
theorem test_color_clamps :
    (after (exec (.ycc2rgb 255#8 255#8 255#8) base)).results = [.port 0xFF68FF] := by decide
theorem test_color_white : ycc2rgb 235#8 128#8 128#8 = { r := 219#8, g := 219#8, b := 219#8 } := by decide
theorem test_rgb565_vector : (after (exec (.rgb2565 0x12#8 0x34#8 0x56#8) base)).results = [.port 0x11AA] := by decide
theorem test_rgb565_low_bits : (after (exec (.rgb2565 8#8 4#8 8#8) base)).results = [.port 0x0821] := by decide
theorem test_gray : (after (exec (.ycc2gray 235#8 90#8 240#8) base)).results = [.port 235] := by decide

/-! ### Queue (95_test_vectors.md 2.5, 2.6) -/

theorem test_q1_first_push_fills :
    (after (exec (.push 0xA1#8) (queued 1 [] 0 0 false))).queue =
      { buf := [(0, 0xA1#8)], wr := 0, rd := 0, full := true } := by decide
theorem test_q2_push_wraps :
    (after (exec (.push 0x44#8) (queued 3 [(0, 0x11#8), (1, 0x22#8), (2, 0x33#8)] 0 1 false))).queue =
      { buf := [(0, 0x44#8), (1, 0x22#8), (2, 0x33#8)], wr := 1, rd := 1, full := true } := by decide
theorem test_q2_push_rejected :
    (after (exec (.push 0x55#8) (queued 3 [(0, 0x44#8), (1, 0x22#8), (2, 0x33#8)] 1 1 true))).cstat.bufferOverflows
      = 1 := by decide
theorem test_q2_pop :
    (after (exec .pop (queued 3 [(0, 0x44#8), (1, 0x22#8), (2, 0x33#8)] 1 1 true))).results
      = [.popped (some 0x22#8)] := by decide
theorem test_q2_pop_empty : (after (exec .pop (queued 3 [] 1 1 false))).results = [.popped none] := by decide
theorem test_q4_avail :
    (after (exec .avail (queued 8 [] 2 6 false))).results = [.available 4] := by decide
theorem test_q4_avail_full : (after (exec .avail (queued 8 [] 5 5 true))).results = [.available 8] := by decide
theorem test_q3_drain_zero : (after (exec (.drain 0) (queued 4 [] 0 0 true))).results = [.drained []] := by decide
theorem test_q5_drain_left_in_progress :
    (after (exec (.drain 3) (queued 4 [(0, 0xAA#8)] 1 0 false))).host.drain =
      some { remaining := 2, got := [0xAA#8], thenFeed := false } := by decide
theorem test_q5_producer_steps_inside_a_drain :
    (after (step { queued 4 [(0, 0xAA#8)] 1 1 false with
      turns := [.producer]
      producer := { requests := [.edge 0xBB#8], drain := none, staging := [] }
      consumer := { requests := [], drain := some { remaining := 2, got := [0xAA#8], thenFeed := false },
                    staging := [0xAA#8] } })).consumer.drain =
      some { remaining := 2, got := [0xAA#8], thenFeed := false } := by decide
theorem test_drain_max_wider_than_arg :
    (after (step { queued 4 [(0, 0xAA#8)] 1 0 false with
      params := wideParams
      turns := [.consumer]
      consumer := { requests := [.drainMax 1099528404992], drain := none, staging := [] } })).consumer.drain =
      some { remaining := 16777215, got := [0xAA#8], thenFeed := false } := by decide
theorem test_service_feeds_what_it_drained :
    (after (runSteps 2 { queued 4 [(0, 0xFF#8)] 1 0 false with
      turns := [.consumer, .consumer]
      consumer := { requests := [.service 1], drain := none, staging := [0x37#8] } })).consumer.staging = [0x37#8] ∧
    (after (runSteps 2 { queued 4 [(0, 0xFF#8)] 1 0 false with
      turns := [.consumer, .consumer]
      consumer := { requests := [.service 1], drain := none, staging := [0x37#8] } })).dec.fsm = .ff := by decide
theorem test_v1_sample_buffered :
    (after (exec (.sample 0xCC#8) (queued 2 [(0, 0xAA#8), (1, 0xBB#8)] 0 0 true))).cstat.bytesCaptured = 0 := by
  decide
theorem test_v2_sample_direct :
    (after (exec (.sample 0xFF#8)
      { base with params := { base.params with mode := .direct } })).dec.fsm = .ff := by decide

/-! ### Control (95_test_vectors.md 2.7) -/

theorem test_k1_reset :
    (after (exec .reset { at' .ff00 true .cr with dec := { (at' .ff00 true .cr).dec with
      lineCount := 12, pixelCount := 7, curY := 9#8, frameStarted := true } })).dec =
      { base.dec with curY := 9#8 } := by decide
theorem test_k3_dstatrst :
    (after (exec .dstatrst { base with dstat := { base.dstat with linesReceived := 900 } })).dstat
      = DecoderStats.zero := by decide
theorem test_k4_cstatrst :
    (after (exec .cstatrst { base with cstat := { base.cstat with bufferOverflows := 5 } })).cstat
      = CaptureStats.zero := by decide
theorem test_k5_setobs :
    (after (exec (.setobs .line true) State.reset)).dec.obs =
      { pixel := false, rgb := false, line := true, frame := false } := by decide
theorem test_k7_rdstat :
    (after (exec (.rdstat 2#4) { base with dstat := { base.dstat with pixelsReceived := 360 } })).results
      = [.port 360] := by decide
theorem test_k8_rdstat_unassigned : (after (exec (.rdstat 7#4) base)).results = [.port 0] := by decide
theorem test_k9_unassigned : (after (exec .unassignedF base)).dec = base.dec := by decide

/-! ### Pseudo-operations (30_encoding.md R126) -/

theorem test_expand_trs :
    expand (.trs 0x10#8) = [.pbyte 0xFF#8, .pbyte 0#8, .pbyte 0#8, .pbyte 0x10#8] := by decide
theorem test_expand_rdcstat : (expand .rdcstat).length = 6 := by decide

/-! ### Witnesses: each statement's hypotheses can be met -/

/-- A state in which the host's turn comes and it has the given requests and staged bytes. -/
def turnOf (rs : List Request) (staged : List Byte) : State :=
  { base with turns := [.host], host := { requests := rs, drain := none, staging := staged } }

theorem test_run_of_two_agents :
    (after (runMoves [⟨.producer, some (.edge 0xFF#8)⟩, ⟨.consumer, some (.service 1)⟩, ⟨.consumer, none⟩]
      State.reset)).dec.fsm = .ff := by decide

theorem test_witness_legal : (1 ≤ Params.default.qcap ∧ 1 ≤ Params.default.maxw ∧
    ∀ w ∈ [Params.default.xyw, Params.default.statw, Params.default.timew], w ≠ .bits 0) := by decide
theorem test_illegal_capacity_refused :
    (match create { Params.default.toSetup with qcap := 0 } with | .ok _ => false | .error _ => true) = true := by decide
theorem test_witness_illegal_capacity : ¬ (1 ≤ ({ Params.default.toSetup with qcap := 0 } : Setup).qcap) := by decide
theorem test_witness_illegal_width :
    ¬ (∀ w ∈ [({ Params.default.toSetup with xyw := .bits 0 } : Setup).xyw], w ≠ .bits 0) := by decide
theorem test_witness_turn_command : (turnOf [.command 0x6000000#28] []).turns = .host :: [] ∧
    (ctxOf (turnOf [.command 0x6000000#28] []) .host).drain = none ∧
    (ctxOf (turnOf [.command 0x6000000#28] []) .host).requests = .command 0x6000000#28 :: [] := by decide
theorem test_witness_turn_byte : (ctxOf (turnOf [.byte 0xFF#8] []) .host).requests = .byte 0xFF#8 :: [] := by decide
theorem test_witness_turn_drain_max :
    (ctxOf (turnOf [.drainMax 5] []) .host).requests = .drainMax 5 :: [] := by decide
theorem test_witness_turn_edge : (ctxOf (turnOf [.edge 0xFF#8] []) .host).requests = .edge 0xFF#8 :: [] := by decide
theorem test_witness_turn_feed : (ctxOf (turnOf [.feed] [1#8]) .host).requests = .feed :: [] ∧
    (ctxOf (turnOf [.feed] [1#8]) .host).staging = 1#8 :: [] := by decide
theorem test_witness_turn_feed_nothing : (ctxOf (turnOf [.feed] []) .host).requests = .feed :: [] ∧
    (ctxOf (turnOf [.feed] []) .host).staging = [] := by decide
theorem test_witness_turn_discard : (ctxOf (turnOf [.discard] [1#8]) .host).requests = .discard :: [] := by decide
theorem test_witness_turn_nothing : (turnOf [] []).turns = .host :: [] ∧
    (ctxOf (turnOf [] []) .host).requests = [] := by decide
theorem test_witness_no_turn : base.turns = [] := by decide
theorem test_witness_round_trip_command : wellFormed Params.default (.drain 65535) = true ∧
    Instr.appliesIn Params.default (.drain 65535) (.command 16) = true := by decide
theorem test_witness_round_trip_stream : wellFormed Params.default (.idleAny 0xFE#8) = true ∧
    Instr.appliesIn Params.default (.idleAny 0xFE#8) (.stream .idle) = true ∧
    Instr.appliesIn Params.default (.undefAny 0xFF#8) (.stream .undef7) = true := by decide
theorem test_witness_round_trip_data : wellFormed Params.default (.dataDiscard 0x00#8) = true ∧
    Instr.appliesIn Params.default (.dataDiscard 0x00#8) (.data false .cr) = true ∧
    Instr.appliesIn Params.default (.dataCr 0x00#8) (.data true .cr) = true := by decide
theorem test_witness_fsm_states : (at' .idle true .y1).dec.fsm = .idle ∧ (at' .ff true .y1).dec.fsm = .ff ∧
    (at' .ff00 true .y1).dec.fsm = .ff00 ∧ (at' .ff0000 true .y1).dec.fsm = .ff0000 ∧
    (at' .controlByte true .y1).dec.fsm = .controlByte ∧ (at' .undef5 true .y1).dec.fsm = .undef5 ∧
    (at' .undef6 true .y1).dec.fsm = .undef6 ∧ (at' .undef7 true .y1).dec.fsm = .undef7 := by decide
theorem test_witness_fsm_states_outside_region : ∀ f ∈ [Fsm.idle, .ff, .ff00, .undef5, .undef6, .undef7],
    (at' f false .cr).dec.fsm = f ∧ (at' f false .cr).dec.active = false := by decide
theorem test_witness_marker3_off : base.params.demuxMarker3 = false ∧ (at' .ff00 true .cr).dec.fsm = .ff00 := by decide
theorem test_witness_marker3_on :
    ({ at' .ff00 true .cr with params := { base.params with demuxMarker3 := true } } : State).params.demuxMarker3 = true ∧
    ({ at' .ff00 true .cr with params := { base.params with demuxMarker3 := true } } : State).dec.fsm = .ff00 := by
  decide
theorem test_witness_ff00_other_byte : (0x01#8 : Byte) ≠ 0x00#8 := by decide
theorem test_witness_agreeing_control_bytes : (at' .ff0000 true .cb).dec.fsm = .ff0000 ∧
    ∀ k, 3 ≤ k → k ≤ 6 → (0x10#8 : Byte).getLsbD k = (0x97#8 : Byte).getLsbD k := by
  refine ⟨rfl, fun k h1 h2 => ?_⟩
  have : k = 3 ∨ k = 4 ∨ k = 5 ∨ k = 6 := by omega
  rcases this with rfl | rfl | rfl | rfl <;> decide
theorem test_witness_no_marker : base.dec.fsm = .idle ∧ ¬ marker <:+: [0xFF#8, 0x00#8, 0x01#8, 0x00#8] := by decide
theorem test_witness_marker_from_idle :
    (feedBytes [0xFF#8, 0x00#8, 0x00#8] base).dec.fsm = .ff0000 ∧ base.dec.fsm = .idle := by decide
theorem test_witness_outside_region : base.dec.fsm = .idle ∧ base.dec.active = false ∧ base.params.errcntPolicy = .frozen ∧
    (0x80#8 : Byte) ≠ 0xFF#8 := by decide
theorem test_witness_group_after_sav : (at' .ff0000 false .cr).dec.fsm = .ff0000 ∧
    (0x08#8 : Byte).getLsbD 3 = true ∧ ¬ marker <:+: [0x10#8, 0x5A#8, 0x51#8, 0xF0#8] := by decide
/-- A state in an open region, three groups from the top of a two-bit pixel count, with the pixel observer only. -/
def inRegion : State :=
  { at' .idle true .y1 with
    params := { base.params with xyw := .bits 2 }
    dec := { (at' .idle true .y1).dec with obs := { pixel := true, rgb := false, line := false, frame := false } } }

theorem test_witness_groups : inRegion.dec.fsm = .idle ∧ inRegion.dec.active = true ∧ inRegion.dec.phase = .y1 ∧
    inRegion.dec.obs.pixel = true ∧ inRegion.dec.obs.rgb = false ∧
    (∀ g ∈ List.replicate 3 (⟨1#8, 2#8, 3#8, 4#8⟩ : Group), ∀ b ∈ g.bytes, b ≠ 0xFF#8) ∧
    fits inRegion.params.xyw (inRegion.dec.pixelCount + (List.replicate 3 (⟨1#8, 2#8, 3#8, 4#8⟩ : Group)).length) =
      true := by decide
theorem test_witness_groups_at_the_top : fits (.bits 2) (2 + 1) = true ∧ fits (.bits 2) (3 + 1) = false := by decide
theorem test_witness_full_queue : (queued 1 [(0, 1#8)] 0 0 true).queue.full = true := by decide
theorem test_witness_room_in_queue : base.queue.full = false ∧ base.queue.wr < base.params.qcap := by decide
theorem test_witness_empty_queue : base.queue.wr = base.queue.rd ∧ base.queue.full = false := by decide
theorem test_witness_nonempty_queue :
    ¬ ((queued 1 [(0, 1#8)] 0 0 true).queue.wr = (queued 1 [(0, 1#8)] 0 0 true).queue.rd ∧
      (queued 1 [(0, 1#8)] 0 0 true).queue.full = false) ∧
    (queued 1 [(0, 1#8)] 0 0 true).queue.rd < (queued 1 [(0, 1#8)] 0 0 true).params.qcap := by decide
theorem test_witness_cursor_outside : (queued 4 [] 4 0 false).queue.full = false ∧
    (queued 4 [] 4 0 false).params.mode = .buffered ∧
    (queued 4 [] 4 0 false).params.qcap ≤ (queued 4 [] 4 0 false).queue.wr ∧
    (queued 4 [] 0 4 false).params.qcap ≤ (queued 4 [] 0 4 false).queue.rd ∧
    ¬ ((queued 4 [] 0 4 false).queue.wr = (queued 4 [] 0 4 false).queue.rd) := by decide
theorem test_witness_modes : base.params.mode = .buffered ∧
    ({ base.params with mode := .direct } : Params).mode = .direct := by decide
theorem test_witness_push_or_sample : (Instr.push 1#8 = .push 1#8) ∧
    (Instr.sample 1#8 = .sample 1#8 ∧ base.params.mode = .buffered) := by decide

/-- A queue of capacity 4 that has wrapped and is full. -/
def fullQueue : State := queued 4 [(0, 1#8), (1, 2#8), (2, 3#8), (3, 4#8)] 2 2 true

/-- The invariant on a state, by its parts. -/
theorem inv_of_parts {s : State} (h2 : s.queue.wr < s.params.qcap)
    (h3 : s.queue.rd < s.params.qcap) (h4 : s.queue.full = true → s.queue.wr = s.queue.rd)
    (h5 : Memory.wf s.queue.buf = true) (h6 : ∀ c ∈ s.queue.buf, c.1 < s.params.qcap)
    (h7 : ∀ k < Queue.count s.params s.queue,
      (Memory.find s.queue.buf ((s.queue.rd + k) % s.params.qcap)).isSome = true)
    (h8 : Fsm.between s.dec.fsm = true) (h9 : s.countersFit = true) : s.Inv :=
  ⟨⟨h2, h3, h4, h5, h6, h7⟩, h8, h9⟩

theorem test_witness_inv_full_queue : fullQueue.Inv :=
  inv_of_parts (by decide) (by decide) (by decide) (by decide) (by decide) (by decide) (by decide) (by decide)
theorem test_witness_inv_base : base.Inv :=
  inv_of_parts (by decide) (by decide) (by decide) (by decide) (by decide) (by decide) (by decide) (by decide)
theorem test_witness_overflow : Queue.Inv base.params base.queue ∧ base.queue.wr = base.queue.rd ∧
    base.queue.full = false ∧ [1#8, 2#8, 3#8, (4#8 : Byte)].length = base.params.qcap :=
  ⟨test_witness_inv_base.queue, by decide⟩

/-- The full queue with the consumer about to drain `n` bytes. -/
def draining (n : Nat) : State :=
  { fullQueue with
    consumer := { requests := [requestOf (encode (.drain n))], drain := none, staging := [] }
    turns := List.replicate (drainSteps n 4) .consumer }

theorem test_witness_drain : Queue.Inv (draining 9).params (draining 9).queue ∧ 9 < 2 ^ (draining 9).params.drainBits ∧ (draining 9).consumer.drain = none ∧
    (draining 9).consumer.requests = requestOf (encode (.drain 9)) :: [] ∧
    (draining 9).turns =
      List.replicate (drainSteps 9 (Queue.count (draining 9).params (draining 9).queue)) .consumer ++ [] :=
  ⟨test_witness_inv_full_queue.queue, by decide⟩
theorem test_witness_drain_zero : (draining 0).turns =
    List.replicate (drainSteps 0 (Queue.count (draining 0).params (draining 0).queue)) .consumer ++ [] := by decide

theorem test_witness_drain_max : 65535 < 2 ^ ({ draining 0 with
    consumer := { requests := [.drainMax 65535], drain := none, staging := [] } } : State).params.maxw := by decide

/-- The consumer's turn with its DRAIN, or that of a SERVICE, in progress on the queue `q`. -/
def inDrain (left : Nat) (service : Bool) (s : State) : State :=
  { s with
    turns := [.consumer]
    consumer := { requests := [], drain := some { remaining := left, got := [9#8], thenFeed := service }, staging := [] } }

theorem test_witness_drain_in_progress : (inDrain 2 true fullQueue).turns = .consumer :: [] ∧
    (ctxOf (inDrain 2 true fullQueue) .consumer).drain = some { remaining := 2, got := [9#8], thenFeed := true } ∧
    ¬ ((inDrain 2 true fullQueue).queue.wr = (inDrain 2 true fullQueue).queue.rd ∧
      (inDrain 2 true fullQueue).queue.full = false) ∧
    (inDrain 2 true fullQueue).queue.rd < (inDrain 2 true fullQueue).params.qcap := by decide
theorem test_witness_drain_last : (ctxOf (inDrain 1 false fullQueue) .consumer).drain =
    some { remaining := 1, got := [9#8], thenFeed := false } := by decide
theorem test_witness_drain_ends : (ctxOf (inDrain 2 false base) .consumer).drain =
    some { remaining := 2, got := [9#8], thenFeed := false } ∧
    (inDrain 2 false base).queue.wr = (inDrain 2 false base).queue.rd ∧
    (inDrain 2 false base).queue.full = false := by decide

/-- The full queue, a byte staged, and the consumer about to run SERVICE 2. -/
def servicing : State :=
  { fullQueue with
    consumer := { requests := [.service 2], drain := none, staging := [7#8] }
    turns := List.replicate 4 .consumer }

theorem test_witness_service : Queue.Inv servicing.params servicing.queue ∧
    servicing.consumer.requests = .service 2 :: [] ∧ servicing.consumer.drain = none ∧
    servicing.turns = List.replicate (drainSteps 2 (Queue.count servicing.params servicing.queue) +
      ((Queue.contents servicing.params servicing.queue).take 2).length) .consumer ++ [] :=
  ⟨test_witness_inv_full_queue.queue, by decide⟩
theorem test_witness_both_modes : Queue.Inv base.params base.queue ∧ base.queue.wr = base.queue.rd ∧
    base.queue.full = false ∧ base.params.mode = .buffered ∧ base.params.errcntPolicy = .frozen ∧
    [1#8, 2#8, 3#8, (4#8 : Byte)].length ≤ base.params.qcap :=
  ⟨test_witness_inv_base.queue, by decide⟩

/-- Two clock edges, a consumer with the given requests and a host that reads a register, interleaved. -/
def interleaved (rs : List Request) : State :=
  { base with
    producer := { requests := [0xFF#8, 0x00#8].map .edge, drain := none, staging := [] }
    consumer := { requests := rs, drain := none, staging := [] }
    host := { requests := [requestOf (encode (.rdstat 9#4))], drain := none, staging := [] }
    turns := [.producer, .consumer, .host, .producer, .consumer] }

/-- A consumer that runs SERVICE. -/
def servicer : State := interleaved [.service 3]

/-- A consumer that runs POP and feeds. -/
def feeder : State := interleaved [requestOf (encode .pop), .feed]

theorem test_witness_interleaving : Queue.Inv servicer.params servicer.queue ∧ servicer.params.mode = .buffered ∧
    servicer.params.errcntPolicy = .frozen ∧ servicer.queue.wr = servicer.queue.rd ∧ servicer.queue.full = false ∧
    servicer.producer = { requests := [0xFF#8, 0x00#8].map .edge, drain := none, staging := [] } ∧
    servicer.consumer.drain = none ∧ servicer.consumer.staging = [] ∧ servicer.host.drain = none ∧
    fits servicer.params.statw (servicer.cstat.bufferOverflows + 1) = true ∧
    (after (runSteps 5 servicer)).cstat.bufferOverflows = servicer.cstat.bufferOverflows :=
  ⟨test_witness_inv_base.queue, by decide⟩
theorem test_witness_interleaving_host :
    ∀ r ∈ servicer.host.requests, ∃ i, r = requestOf (encode (.rdstat i)) := by
  intro r h
  exact ⟨9#4, List.mem_singleton.mp h⟩
theorem test_witness_interleaving_service : keepsOrder servicer.consumer.requests ∧
    ∃ t, runSteps 5 servicer = .next t :=
  ⟨.inl fun _ h => ⟨3, List.mem_singleton.mp h⟩, after (runSteps 5 servicer), rfl⟩
theorem test_witness_interleaving_feed : keepsOrder feeder.consumer.requests ∧
    ∃ t, runSteps 5 feeder = .next t := by
  refine ⟨.inr fun r h => ?_, after (runSteps 5 feeder), rfl⟩
  rcases List.mem_pair.mp h with rfl | rfl
  · exact .inr (.inl rfl)
  · exact .inl rfl
theorem test_interleaving_decodes_inside_a_drain :
    (after (runSteps 5 servicer)).consumer.drain =
      some { remaining := 1, got := [0xFF#8, 0x00#8], thenFeed := true } := by decide
theorem test_witness_interrupts : base.queue.wr < base.params.qcap ∧
    base.cstat.interruptsHandled = base.cstat.bytesCaptured + base.cstat.bufferOverflows ∧
    fits base.params.statw (base.cstat.interruptsHandled + 1) = true := by decide
theorem test_witness_exec_answers : ∃ t, exec .reset base = .next t ∧
    ((∀ b, Instr.reset ≠ .push b) ∧ Instr.reset ≠ .pop ∧ (∀ n, Instr.reset ≠ .drain n) ∧
      (∀ b, Instr.reset ≠ .sample b)) ∧ Instr.reset ≠ .cstatrst ∧ Instr.reset ≠ .dstatrst ∧
      (∀ k v, Instr.reset ≠ .setobs k v) :=
  ⟨after (exec .reset base), rfl, by refine ⟨⟨?_, ?_, ?_, ?_⟩, ?_, ?_, ?_⟩ <;> (intros; simp)⟩
theorem test_witness_step_answers : ∃ t, step base = .next t := ⟨_, rfl⟩
theorem test_witness_other_agent : (Agent.producer ≠ base.running) := by decide

end Sys2Proof.Tests
end

section
/-! The agent in turn and the agents not in turn (00_scope.md R8, R18): what a step runs, and what every instruction
leaves of the agents and of the output. -/

namespace Sys2Proof.Machine

open Sys2Proof

/-! ### The step of the agent in turn -/

/-- Giving an agent the turn changes no agent's context. -/
@[simp] theorem ctxOf_turnTaken (s : State) (turns : List Agent) (a b : Agent) :
    ctxOf { s with turns := turns, running := a } b = ctxOf s b := by
  cases b <;> rfl

/-- An agent in turn with no DRAIN in progress starts its oldest request. -/
theorem fetch_of_request {s : State} {a : Agent} {turns : List Agent} {r : Request} {rs : List Request}
    (hturn : s.turns = a :: turns) (hdrain : (ctxOf s a).drain = none)
    (hreq : (ctxOf s a).requests = r :: rs) :
    fetch s = startRequest r
      (setCtx a { ctxOf s a with requests := rs } { s with turns := turns, running := a }) := by
  simp [fetch, agentStep, hturn, hdrain, hreq]

/-- The step of a fetched instruction is its meaning. -/
theorem step_of_fetch_instr {s t : State} {i : Instr} (h : fetch s = .instr i t) : step s = exec i t := by
  simp [step, h]

/-! ### What one agent's operations leave of the others and of the output -/

/-- From `s` to `t` only the agent running in `s` has moved: the other agents' contexts, the turns and the running
agent are kept, and the trace and the results have at most grown. -/
structure RunnerOnly (s t : State) : Prop where
  others : ∀ a, a ≠ s.running → ctxOf t a = ctxOf s a
  turns : t.turns = s.turns
  running : t.running = s.running
  trace : s.trace <+: t.trace
  results : s.results <+: t.results

theorem RunnerOnly.trans {s t u : State} (h : RunnerOnly s t) (k : RunnerOnly t u) : RunnerOnly s u where
  others a ha := (k.others a (h.running ▸ ha)).trans (h.others a ha)
  turns := k.turns.trans h.turns
  running := k.running.trans h.running
  trace := h.trace.trans k.trace
  results := h.results.trans k.results

/-- Writing the core's registers and taking free values moves no agent and shows nothing. -/
theorem runnerOnly_core (s : State) (d : Decoder) (q : Queue) (ds : DecoderStats) (cs : CaptureStats) (n : Nat) :
    RunnerOnly s { s with dec := d, queue := q, dstat := ds, cstat := cs, draws := n } where
  others a _ := by cases a <;> rfl
  turns := rfl
  running := rfl
  trace := List.prefix_rfl
  results := List.prefix_rfl

theorem RunnerOnly.refl (s : State) : RunnerOnly s s := runnerOnly_core s _ _ _ _ _

theorem runnerOnly_emit (on : Bool) (e : Event) (s : State) : RunnerOnly s (emit on e s) where
  others a _ := by cases a <;> rfl
  turns := rfl
  running := rfl
  trace := List.prefix_append _ _
  results := List.prefix_rfl

theorem runnerOnly_giveResult (r : Result) (s : State) : RunnerOnly s (giveResult r s) where
  others a _ := by cases a <;> rfl
  turns := rfl
  running := rfl
  trace := List.prefix_rfl
  results := List.prefix_append _ _

theorem runnerOnly_setCtx_running (c : AgentCtx) (s : State) : RunnerOnly s (setCtx s.running c s) where
  others _ ha := ctxOf_setCtx_other ha c s
  turns := setCtx_turns _ _ _
  running := setCtx_running _ _ _
  trace := (setCtx_trace s.running c s).symm ▸ List.prefix_rfl
  results := (setCtx_results s.running c s).symm ▸ List.prefix_rfl

/-! ### The decoder -/

theorem runnerOnly_dispatchSample (s : State) : RunnerOnly s (dispatchSample s) :=
  (runnerOnly_emit _ _ _).trans (runnerOnly_emit _ _ _)

theorem runnerOnly_demuxCr (b : Byte) (s : State) : RunnerOnly s (demuxCr b s) :=
  ((runnerOnly_core s _ _ _ _ _).trans (runnerOnly_dispatchSample (storeCr b s))).trans
    (runnerOnly_core _ _ _ _ _ _)

theorem runnerOnly_demux (b : Byte) (s : State) : RunnerOnly s (demux b s) := by
  unfold demux
  split
  case h_1 => exact runnerOnly_core s _ _ _ _ _
  case h_2 => exact runnerOnly_core s _ _ _ _ _
  case h_3 => exact runnerOnly_core s _ _ _ _ _
  case h_4 => exact runnerOnly_demuxCr b s

theorem runnerOnly_offerData (b : Byte) (s : State) : RunnerOnly s (offerData b s) := by
  unfold offerData
  split
  · exact runnerOnly_demux b s
  · exact RunnerOnly.refl s

theorem runnerOnly_setFsm (f : Fsm) (s : State) : RunnerOnly s (setFsm f s) := runnerOnly_core s _ _ _ _ _

/-- The arm shared by the rows whose byte is also data. -/
theorem runnerOnly_offerData_setFsm (f : Fsm) (b : Byte) (s : State) :
    RunnerOnly s (offerData b (setFsm f s)) :=
  (runnerOnly_setFsm f s).trans (runnerOnly_offerData b _)

theorem runnerOnly_vsyncCheck (f : SyncFlags) (s : State) : RunnerOnly s (vsyncCheck f s) := by
  unfold vsyncCheck
  split
  · exact (runnerOnly_core s _ _ _ _ _).trans (runnerOnly_emit _ _ _)
  · exact RunnerOnly.refl s

theorem runnerOnly_hsyncCheck (f : SyncFlags) (s : State) : RunnerOnly s (hsyncCheck f s) := by
  unfold hsyncCheck
  split
  · exact ((runnerOnly_core s _ _ _ _ _).trans (runnerOnly_emit _ _ _)).trans (runnerOnly_core _ _ _ _ _ _)
  · exact RunnerOnly.refl s

theorem runnerOnly_savCheck (f : SyncFlags) (s : State) : RunnerOnly s (savCheck f s) := by
  unfold savCheck
  split
  · exact runnerOnly_core s _ _ _ _ _
  · exact runnerOnly_core s _ _ _ _ _

theorem runnerOnly_syncControl (f : SyncFlags) (s : State) : RunnerOnly s (syncControl f s) :=
  ((runnerOnly_vsyncCheck f s).trans (runnerOnly_hsyncCheck f _)).trans
    ((runnerOnly_savCheck f _).trans (runnerOnly_core _ _ _ _ _ _))

theorem runnerOnly_armFf00Zero (s : State) : RunnerOnly s (armFf00Zero s) := by
  unfold armFf00Zero
  split
  · exact runnerOnly_offerData_setFsm _ _ s
  · exact runnerOnly_setFsm _ s

theorem runnerOnly_armXyLate (f : SyncFlags) (s : State) : RunnerOnly s (armXyLate f s) :=
  (runnerOnly_syncControl f s).trans (runnerOnly_setFsm _ _)

/-- A control byte in its own state is parsed as the late one is, from CONTROL_BYTE (40 R144, R145). -/
theorem runnerOnly_armXy (f : SyncFlags) (s : State) : RunnerOnly s (armXy f s) :=
  (runnerOnly_setFsm _ s).trans (runnerOnly_armXyLate f _)

theorem runnerOnly_detect (b : Byte) (s : State) : RunnerOnly s (detect b s) := by
  unfold detect
  split
  · split <;> exact runnerOnly_offerData_setFsm _ _ s
  · split <;> exact runnerOnly_offerData_setFsm _ _ s
  · split
    · exact runnerOnly_armFf00Zero s
    · exact runnerOnly_offerData_setFsm _ _ s
  · exact runnerOnly_armXy _ s
  · exact runnerOnly_armXyLate _ s
  all_goals exact runnerOnly_offerData_setFsm _ _ s

theorem runnerOnly_applyErrorPolicy (s : State) : RunnerOnly s (applyErrorPolicy s) := by
  unfold applyErrorPolicy
  split
  · exact RunnerOnly.refl s
  · exact runnerOnly_core s _ _ _ _ _

/-- The error-counter policy at the end of a PBYTE step adds nothing to what its arm does. -/
theorem RunnerOnly.thenErrorPolicy {s t : State} (h : RunnerOnly s t) : RunnerOnly s (applyErrorPolicy t) :=
  h.trans (runnerOnly_applyErrorPolicy t)

theorem runnerOnly_feedByte (b : Byte) (s : State) : RunnerOnly s (feedByte b s) :=
  (runnerOnly_detect b s).thenErrorPolicy

/-! ### The queue -/

theorem runnerOnly_pushStep {b : Byte} {s t : State} {acc : Bool} (h : pushStep b s = .ok (t, acc)) :
    RunnerOnly s t := by
  obtain ⟨-, -, rfl⟩ | ⟨-, -, -, rfl⟩ := pushStep_cases h
  · exact runnerOnly_core s _ _ _ _ _
  · exact runnerOnly_core s _ _ _ _ _

theorem runnerOnly_popStep {s t : State} {data : Option Byte} (h : popStep s = .ok (t, data)) :
    RunnerOnly s t := by
  obtain ⟨-, -, rfl⟩ | ⟨-, -, -, rfl⟩ := popStep_cases h
  · exact RunnerOnly.refl _
  · exact runnerOnly_core s _ _ _ _ _

theorem runnerOnly_stage (b : Byte) (s : State) : RunnerOnly s (stage b s) := runnerOnly_setCtx_running _ s

theorem runnerOnly_stageUnless (thenFeed : Bool) (b : Byte) (s : State) :
    RunnerOnly s (stageUnless thenFeed b s) := by
  unfold stageUnless
  split
  · exact RunnerOnly.refl s
  · exact runnerOnly_stage b s

theorem runnerOnly_setDrain (d : Option Drain) (s : State) : RunnerOnly s (setDrain d s) :=
  runnerOnly_setCtx_running _ s

theorem runnerOnly_finishDrain (got : List Byte) (thenFeed : Bool) (s : State) :
    RunnerOnly s (finishDrain got thenFeed s) := by
  have hreturn : RunnerOnly s (giveResult (.drained got) (setDrain none s)) :=
    (runnerOnly_setDrain none s).trans (runnerOnly_giveResult _ _)
  unfold finishDrain
  split
  · exact hreturn.trans (runnerOnly_setCtx_running _ _)
  · exact hreturn

theorem runnerOnly_drainStep {d : Drain} {s t : State} (h : drainStep d s = .ok t) : RunnerOnly s t := by
  obtain ⟨-, rfl⟩ | ⟨left, -, -, -, b, u, -, hu, rfl⟩ := drainStep_cases h
  · exact runnerOnly_finishDrain _ _ s
  · have htaken : RunnerOnly s u := by
      rw [hu]
      exact (runnerOnly_core s _ _ _ _ _).trans (runnerOnly_stageUnless d.thenFeed b _)
    refine htaken.trans ?_
    split
    · exact runnerOnly_finishDrain _ _ _
    · exact runnerOnly_setDrain _ _

/-! ### The instructions -/

theorem RunnerOnly.of_next {s t u : State} (hu : RunnerOnly s u)
    (h : (Host.Outcome.next u : Host.Outcome State Fault Refusal) = .next t) : RunnerOnly s t := by
  cases h
  exact hu

theorem runnerOnly_execPush {b : Byte} {s t : State} (h : execPush b s = .next t) : RunnerOnly s t := by
  unfold execPush at h
  split at h
  next hpush => exact ((runnerOnly_pushStep hpush).trans (runnerOnly_giveResult _ _)).of_next h
  next => cases h

theorem runnerOnly_execPop {s t : State} (h : execPop s = .next t) : RunnerOnly s t := by
  unfold execPop at h
  split at h
  next hpop => exact ((runnerOnly_popStep hpop).trans (runnerOnly_giveResult _ _)).of_next h
  next hpop =>
    exact (((runnerOnly_popStep hpop).trans (runnerOnly_stage _ _)).trans (runnerOnly_giveResult _ _)).of_next h
  next => cases h

theorem eq_ok_of_outcome_eq_next {r : Except Fault State} {t : State} (h : outcome r = .next t) : r = .ok t := by
  cases r with
  | ok u => cases h; rfl
  | error f => cases h

theorem runnerOnly_execDrain {n : Nat} {s t : State} (h : execDrain n s = .next t) : RunnerOnly s t :=
  runnerOnly_drainStep (eq_ok_of_outcome_eq_next h)

theorem runnerOnly_sampleBuffered {b : Byte} {s t : State} (h : sampleBuffered b s = .ok t) :
    RunnerOnly s t := by
  unfold sampleBuffered at h
  split at h
  next hpush =>
    cases h
    refine (runnerOnly_pushStep hpush).trans ?_
    split
    · exact runnerOnly_core _ _ _ _ _ _
    · exact RunnerOnly.refl _
  next => cases h

theorem runnerOnly_execSample {b : Byte} {s t : State} (h : execSample b s = .next t) : RunnerOnly s t := by
  have hint : RunnerOnly s (countInterrupt s) := runnerOnly_core s _ _ _ _ _
  have hstamp (u : State) : RunnerOnly u (stampService u) := runnerOnly_core u _ _ _ _ _
  unfold execSample at h
  split at h
  case h_1 =>
    split at h
    next hsample => exact ((hint.trans (runnerOnly_sampleBuffered hsample)).trans (hstamp _)).of_next h
    next => cases h
  case h_2 =>
    have hcap : RunnerOnly (countInterrupt s) (countCaptured (countInterrupt s)) := runnerOnly_core _ _ _ _ _ _
    exact (((hint.trans hcap).trans (runnerOnly_feedByte b _)).trans (hstamp _)).of_next h

/-- Every instruction moves only the agent that runs it, and takes no output back. -/
theorem runnerOnly_exec {i : Instr} {s t : State} (h : exec i s = .next t) : RunnerOnly s t := by
  cases i with
  | pbyte b => exact (runnerOnly_feedByte b s).of_next h
  | push b => exact runnerOnly_execPush h
  | drain n => exact runnerOnly_execDrain h
  | pop => exact runnerOnly_execPop h
  | sample b => exact runnerOnly_execSample h
  | rdstat _ | avail | ycc2rgb _ _ _ | rgb2565 _ _ _ | ycc2gray _ _ _ =>
    exact (runnerOnly_giveResult _ s).of_next h
  | reset | setobs _ _ | dstatrst | cstatrst | unassignedE | unassignedF =>
    exact (runnerOnly_core s _ _ _ _ _).of_next h
  | idleFf | idleAny _ | ffZero | ffAny _ | ff00Any _ | undefAny _ =>
    exact (runnerOnly_offerData_setFsm _ _ s).thenErrorPolicy.of_next h
  | ff00Zero => exact (runnerOnly_armFf00Zero s).thenErrorPolicy.of_next h
  | xy f => exact (runnerOnly_armXy f s).thenErrorPolicy.of_next h
  | xyLate f => exact (runnerOnly_armXyLate f s).thenErrorPolicy.of_next h
  | dataY1 _ | dataCb _ | dataY2 _ | dataDiscard _ => exact (runnerOnly_core s _ _ _ _ _).of_next h
  | dataCr b => exact (runnerOnly_demuxCr b s).of_next h

/-- Settles O60: the instructions' shared operations each move only the running agent and append to the output. -/
theorem otherAgentsAreLeftAlone : Obligations.OtherAgentsAreLeftAlone := by
  intro i s t h
  obtain ⟨hothers, hturns, hrunning, htrace, hresults⟩ := runnerOnly_exec h
  exact ⟨hothers, hturns, hrunning, htrace, hresults⟩

/-- Settles O3: the request fetched is the oldest one, and each of the four kinds fetches its instruction. -/
theorem stepRunsTheDecodedInstruction : Obligations.StepRunsTheDecodedInstruction := by
  intro s a turns rs hturn hdrain u
  have hparams : u.params = s.params := setCtx_params _ _ _
  have hdec : u.dec = s.dec := setCtx_dec _ _ _
  have hfetch {r : Request} (hreq : (ctxOf s a).requests = r :: rs) : fetch s = startRequest r u :=
    fetch_of_request hturn hdrain hreq
  refine ⟨fun w hreq => ?_, fun b hreq => ?_, fun n hreq => ?_, fun b hreq => ?_⟩
  · rw [← hparams]; exact step_of_fetch_instr (hfetch hreq)
  · rw [← hdec]; exact step_of_fetch_instr (hfetch hreq)
  · rw [← hparams]; exact step_of_fetch_instr (hfetch hreq)
  · exact step_of_fetch_instr (hfetch hreq)

end Sys2Proof.Machine
end

section
/-! The state (10_state.md): the counters, the observers and the parameters under every instruction, the queue under PUSH
and POP, and the invariant of the machine under every step. -/

namespace Sys2Proof.Machine

open Sys2Proof

/-! ### Counters within their width, one statement per group of registers -/

/-- Both counters of the Decoder Context are values of their width. -/
structure Decoder.Fit (p : Params) (d : Decoder) : Prop where
  lineCount : fits p.xyw d.lineCount = true
  pixelCount : fits p.xyw d.pixelCount = true

/-- Every Decoder Statistics register is a value of its width. -/
structure DecoderStats.Fit (p : Params) (d : DecoderStats) : Prop where
  framesReceived : fits p.statw d.framesReceived = true
  linesReceived : fits p.statw d.linesReceived = true
  pixelsReceived : fits p.statw d.pixelsReceived = true
  timingErrors : fits p.statw d.timingErrors = true
  syncErrors : fits p.statw d.syncErrors = true
  dataErrors : fits p.statw d.dataErrors = true
  lastFrameTime : fits p.timew d.lastFrameTime = true

/-- Every Capture Statistics register is a value of its width. -/
structure CaptureStats.Fit (p : Params) (c : CaptureStats) : Prop where
  interruptsHandled : fits p.statw c.interruptsHandled = true
  bytesCaptured : fits p.statw c.bytesCaptured = true
  bufferOverflows : fits p.statw c.bufferOverflows = true
  missedSamples : fits p.statw c.missedSamples = true
  avgServiceTime : fits p.timew c.avgServiceTime = true
  lastServiceTime : fits p.timew c.lastServiceTime = true

theorem State.countersFit_iff {s : State} :
    s.countersFit = true ↔ s.dec.Fit s.params ∧ s.dstat.Fit s.params ∧ s.cstat.Fit s.params := by
  simp only [State.countersFit, Bool.and_eq_true, and_assoc]
  constructor
  · rintro ⟨hline, hpixel, hframes, hlines, hpixels, htiming, hsync, hdata, hframeTime,
      hinterrupts, hcaptured, hoverflows, hmissed, havg, hlast⟩
    exact ⟨⟨hline, hpixel⟩, ⟨hframes, hlines, hpixels, htiming, hsync, hdata, hframeTime⟩,
      ⟨hinterrupts, hcaptured, hoverflows, hmissed, havg, hlast⟩⟩
  · rintro ⟨⟨hline, hpixel⟩, ⟨hframes, hlines, hpixels, htiming, hsync, hdata, hframeTime⟩,
      ⟨hinterrupts, hcaptured, hoverflows, hmissed, havg, hlast⟩⟩
    exact ⟨hline, hpixel, hframes, hlines, hpixels, htiming, hsync, hdata, hframeTime,
      hinterrupts, hcaptured, hoverflows, hmissed, havg, hlast⟩

theorem fit_decoder_powerOn (p : Params) : Decoder.powerOn.Fit p := ⟨zero_fits _, zero_fits _⟩

theorem fit_decoderStats_zero (p : Params) : DecoderStats.zero.Fit p := by
  constructor <;> exact zero_fits _

theorem fit_captureStats_zero (p : Params) : CaptureStats.zero.Fit p := by
  constructor <;> exact zero_fits _

/-! ### How a counter may move -/

/-- A counter of width `w` at `c` has later come to `c'`: not lower, and within its width if it was (10_state.md R40). -/
structure CounterRises (w : Width) (c c' : Nat) : Prop where
  le : c ≤ c'
  fits : fits w c = true → fits w c' = true

theorem CounterRises.refl (w : Width) (c : Nat) : CounterRises w c c := ⟨le_rfl, id⟩

theorem CounterRises.trans {w : Width} {a b c : Nat} (h : CounterRises w a b) (k : CounterRises w b c) :
    CounterRises w a c := ⟨h.le.trans k.le, k.fits ∘ h.fits⟩

theorem counterRises_inc (w : Width) (c : Nat) : CounterRises w c (inc w c) := ⟨le_inc w c, inc_fits⟩

/-- An error counter has later come to `c'`: it rises, and not at all under the frozen policy (10_state.md R42). -/
structure ErrorRises (p : Params) (c c' : Nat) : Prop extends CounterRises p.statw c c' where
  frozen : p.errcntPolicy = .frozen → c' = c

theorem ErrorRises.refl (p : Params) (c : Nat) : ErrorRises p c c := ⟨.refl _ c, fun _ => rfl⟩

theorem ErrorRises.trans {p : Params} {a b c : Nat} (h : ErrorRises p a b) (k : ErrorRises p b c) :
    ErrorRises p a c :=
  ⟨h.toCounterRises.trans k.toCounterRises, fun hp => (k.frozen hp).trans (h.frozen hp)⟩

/-- A free rise is allowed where the policy is free. -/
theorem errorRises_notBelow {p : Params} (hp : p.errcntPolicy = .free) (c v : Nat) :
    ErrorRises p c (notBelow p.statw c v) where
  le := le_notBelow _ _ _
  fits h := notBelow_fits h v
  frozen hf := by rw [hp] at hf; cases hf

/-! ### How the groups of registers may move -/

/-- The Decoder Context `d` has later become `e`, with no SETOBS (10_state.md R23, R46). -/
structure Decoder.Becomes (p : Params) (d e : Decoder) : Prop where
  obs : e.obs = d.obs
  fsm : Fsm.between d.fsm = true → Fsm.between e.fsm = true
  lineCount : fits p.xyw d.lineCount = true → fits p.xyw e.lineCount = true
  pixelCount : fits p.xyw d.pixelCount = true → fits p.xyw e.pixelCount = true

theorem Decoder.Becomes.refl (p : Params) (d : Decoder) : d.Becomes p d := ⟨rfl, id, id, id⟩

theorem Decoder.Becomes.trans {p : Params} {a b c : Decoder} (h : a.Becomes p b) (k : b.Becomes p c) :
    a.Becomes p c :=
  ⟨k.obs.trans h.obs, k.fsm ∘ h.fsm, k.lineCount ∘ h.lineCount, k.pixelCount ∘ h.pixelCount⟩

theorem Decoder.Becomes.fit {p : Params} {d e : Decoder} (h : d.Becomes p e) (hd : d.Fit p) : e.Fit p :=
  ⟨h.lineCount hd.lineCount, h.pixelCount hd.pixelCount⟩

/-- The Decoder Statistics `d` have later become `e`, with no DSTATRST (10_state.md R40, R42). -/
structure DecoderStats.Becomes (p : Params) (d e : DecoderStats) : Prop where
  frames : CounterRises p.statw d.framesReceived e.framesReceived
  lines : CounterRises p.statw d.linesReceived e.linesReceived
  pixels : CounterRises p.statw d.pixelsReceived e.pixelsReceived
  timing : ErrorRises p d.timingErrors e.timingErrors
  sync : ErrorRises p d.syncErrors e.syncErrors
  data : ErrorRises p d.dataErrors e.dataErrors
  frameTime : fits p.timew d.lastFrameTime = true → fits p.timew e.lastFrameTime = true

theorem DecoderStats.Becomes.refl (p : Params) (d : DecoderStats) : d.Becomes p d :=
  ⟨.refl _ _, .refl _ _, .refl _ _, .refl _ _, .refl _ _, .refl _ _, id⟩

theorem DecoderStats.Becomes.trans {p : Params} {a b c : DecoderStats} (h : a.Becomes p b)
    (k : b.Becomes p c) : a.Becomes p c :=
  ⟨h.frames.trans k.frames, h.lines.trans k.lines, h.pixels.trans k.pixels, h.timing.trans k.timing,
   h.sync.trans k.sync, h.data.trans k.data, k.frameTime ∘ h.frameTime⟩

theorem DecoderStats.Becomes.fit {p : Params} {d e : DecoderStats} (h : d.Becomes p e) (hd : d.Fit p) :
    e.Fit p :=
  ⟨h.frames.fits hd.framesReceived, h.lines.fits hd.linesReceived, h.pixels.fits hd.pixelsReceived,
   h.timing.fits hd.timingErrors, h.sync.fits hd.syncErrors, h.data.fits hd.dataErrors,
   h.frameTime hd.lastFrameTime⟩

/-- The Capture Statistics `c` have later become `e`, with no CSTATRST (10_state.md R41, R43). -/
structure CaptureStats.Becomes (p : Params) (c e : CaptureStats) : Prop where
  interrupts : CounterRises p.statw c.interruptsHandled e.interruptsHandled
  captured : CounterRises p.statw c.bytesCaptured e.bytesCaptured
  overflows : CounterRises p.statw c.bufferOverflows e.bufferOverflows
  missed : e.missedSamples = c.missedSamples
  avgTime : fits p.timew c.avgServiceTime = true → fits p.timew e.avgServiceTime = true
  lastTime : fits p.timew c.lastServiceTime = true → fits p.timew e.lastServiceTime = true

theorem CaptureStats.Becomes.refl (p : Params) (c : CaptureStats) : c.Becomes p c :=
  ⟨.refl _ _, .refl _ _, .refl _ _, rfl, id, id⟩

theorem CaptureStats.Becomes.trans {p : Params} {a b c : CaptureStats} (h : a.Becomes p b)
    (k : b.Becomes p c) : a.Becomes p c :=
  ⟨h.interrupts.trans k.interrupts, h.captured.trans k.captured, h.overflows.trans k.overflows,
   k.missed.trans h.missed, k.avgTime ∘ h.avgTime, k.lastTime ∘ h.lastTime⟩

theorem CaptureStats.Becomes.fit {p : Params} {c e : CaptureStats} (h : c.Becomes p e) (hc : c.Fit p) :
    e.Fit p :=
  ⟨h.interrupts.fits hc.interruptsHandled, h.captured.fits hc.bytesCaptured,
   h.overflows.fits hc.bufferOverflows, h.missed ▸ hc.missedSamples, h.avgTime hc.avgServiceTime,
   h.lastTime hc.lastServiceTime⟩

/-! ### The queue under PUSH and POP -/

/-- The queue after a PUSH that found room (44 R220). -/
def Queue.pushed (p : Params) (b : Byte) (q : Queue) : Queue :=
  { q with buf := Memory.store q.buf q.wr b, wr := advance p q.wr, full := decide (advance p q.wr = q.rd) }

/-- The queue after a POP that found a byte (44 R221). -/
def Queue.popped (p : Params) (q : Queue) : Queue := { q with rd := advance p q.rd, full := false }

/-- The number of queued bytes by the order of the cursors (10_state.md R38). -/
theorem count_eq_ite {p : Params} {q : Queue} (hwr : q.wr < p.qcap) (hrd : q.rd < p.qcap) :
    Queue.count p q =
      if q.full = true then p.qcap else if q.wr < q.rd then p.qcap + q.wr - q.rd else q.wr - q.rd := by
  split
  next hf => exact count_full hf
  next hf =>
    have hf : q.full = false := by simpa using hf
    split
    next hlt => exact count_of_lt hf hrd hlt
    next hge => exact count_of_le hf hwr (Nat.le_of_not_lt hge)

/-- A cursor goes on to the next cell, or wraps after the last (10_state.md R36). -/
theorem advance_eq_ite {p : Params} {c : Nat} (hc : c < p.qcap) :
    advance p c = if c + 1 < p.qcap then c + 1 else 0 := by
  split
  next h => exact advance_of_lt h
  next h => exact advance_of_eq (by omega)

/-- The write cursor stands just past the queued bytes. -/
theorem Queue.Inv.wr_eq {p : Params} {q : Queue} (h : Queue.Inv p q) :
    (q.rd + Queue.count p q) % p.qcap = q.wr := by
  obtain ⟨hwr, hrd, hfull, -, -, -⟩ := h
  rw [count_eq_ite hwr hrd]
  split_ifs with hf hlt
  · rw [Nat.add_mod_right, Nat.mod_eq_of_lt hrd, hfull hf]
  · rw [show q.rd + (p.qcap + q.wr - q.rd) = q.wr + p.qcap by omega, Nat.add_mod_right, Nat.mod_eq_of_lt hwr]
  · rw [Nat.add_sub_cancel' (Nat.le_of_not_lt hlt), Nat.mod_eq_of_lt hwr]

/-- A PUSH that finds room adds one byte. -/
theorem Queue.Inv.count_pushed {p : Params} {q : Queue} (h : Queue.Inv p q) (hf : q.full = false) (b : Byte) :
    Queue.count p (Queue.pushed p b q) = Queue.count p q + 1 := by
  obtain ⟨hwr, hrd, -, -, -, -⟩ := h
  rw [count_eq_ite hwr hrd, count_eq_ite (q := Queue.pushed p b q) (advance_lt (qcap_pos p) _) hrd]
  simp only [Queue.pushed, hf, decide_eq_true_eq, advance_eq_ite hwr, Bool.false_eq_true, if_false]
  split_ifs <;> omega

/-- A POP that finds a byte takes one away. -/
theorem Queue.Inv.count_popped {p : Params} {q : Queue} (h : Queue.Inv p q) (hne : Queue.isEmpty q = false) :
    Queue.count p (Queue.popped p q) + 1 = Queue.count p q := by
  obtain ⟨hwr, hrd, hfull, -, -, -⟩ := h
  have hoccupied : q.full = false → q.wr ≠ q.rd := fun hf heq => by simp [isEmpty_iff.2 ⟨heq, hf⟩] at hne
  rw [count_eq_ite hwr hrd, count_eq_ite (q := Queue.popped p q) hwr (advance_lt (qcap_pos p) _)]
  simp only [Queue.popped, advance_eq_ite hrd, Bool.false_eq_true, if_false]
  cases hf : q.full with
  | true =>
    have hmeet := hfull hf
    simp only [if_true]
    split_ifs <;> omega
  | false =>
    have hapart := hoccupied hf
    simp only [Bool.false_eq_true, if_false]
    split_ifs <;> omega

/-- A write leaves every written cell written. -/
theorem find_store_isSome {m : Memory} {c : Nat} (h : (Memory.find m c).isSome = true) (a : Nat) (v : Byte) :
    (Memory.find (Memory.store m a v) c).isSome = true := by
  by_cases hc : c = a
  · simp [hc]
  · rwa [find_store_other m hc]

/-- The cell a PUSH writes is the one after the queued bytes, so all queued cells are written again. -/
theorem Queue.Inv.pushed {p : Params} {q : Queue} (h : Queue.Inv p q) (hf : q.full = false) (b : Byte) :
    Queue.Inv p (Queue.pushed p b q) where
  wr_lt := advance_lt (qcap_pos p) _
  rd_lt := h.rd_lt
  full_eq hmeet := of_decide_eq_true hmeet
  buf_wf := store_wf h.buf_wf _ _
  buf_range c hc := by
    obtain rfl | hold := mem_store hc
    · exact h.wr_lt
    · exact h.buf_range c hold
  written k hk := by
    rw [h.count_pushed hf b] at hk
    show (Memory.find (Memory.store q.buf q.wr b) ((q.rd + k) % p.qcap)).isSome = true
    obtain hold | rfl := Nat.lt_or_eq_of_le (Nat.le_of_lt_succ hk)
    · exact find_store_isSome (h.written k hold) _ _
    · simp [h.wr_eq]

/-- What is queued after a POP was queued before it, one place later. -/
theorem Queue.Inv.popped {p : Params} {q : Queue} (h : Queue.Inv p q) (hne : Queue.isEmpty q = false) :
    Queue.Inv p (Queue.popped p q) where
  wr_lt := h.wr_lt
  rd_lt := advance_lt (qcap_pos p) _
  full_eq hf := by cases hf
  buf_wf := h.buf_wf
  buf_range := h.buf_range
  written k hk := by
    have hcell : (advance p q.rd + k) % p.qcap = (q.rd + (k + 1)) % p.qcap := by
      rw [advance, Nat.mod_add_mod, Nat.add_right_comm, Nat.add_assoc]
    have hcount := h.count_popped hne
    show (Memory.find q.buf ((advance p q.rd + k) % p.qcap)).isSome = true
    rw [hcell]
    exact h.written (k + 1) (by omega)

theorem queueInv_powerOn (p : Params) : Queue.Inv p Queue.powerOn where
  wr_lt := qcap_pos p
  rd_lt := qcap_pos p
  full_eq _ := rfl
  buf_wf := rfl
  buf_range c hc := by cases hc
  written k hk := by
    rw [count_of_le rfl (qcap_pos p) le_rfl] at hk
    cases hk

/-! ### Progress: what everything but SETOBS and the resets of the statistics does -/

/-- From `s` to `t` the parameters and the observers are kept, the counters have moved as 10_state.md R40 to R43 allow,
and what held of the queue, the detector and the widths still holds. -/
structure Progress (s t : State) : Prop where
  params : t.params = s.params
  dec : s.dec.Becomes s.params t.dec
  queue : Queue.Inv s.params s.queue → Queue.Inv s.params t.queue
  dstat : s.dstat.Becomes s.params t.dstat
  cstat : s.cstat.Becomes s.params t.cstat

theorem Progress.trans {s t u : State} (h : Progress s t) (k : Progress t u) : Progress s u := by
  obtain ⟨kparams, kdec, kqueue, kdstat, kcstat⟩ := k
  rw [h.params] at kparams kdec kqueue kdstat kcstat
  exact ⟨kparams, h.dec.trans kdec, kqueue ∘ h.queue, h.dstat.trans kdstat, h.cstat.trans kcstat⟩

theorem Progress.of_next {s t u : State} (hu : Progress s u)
    (h : (Host.Outcome.next u : Host.Outcome State Fault Refusal) = .next t) : Progress s t := by
  cases h
  exact hu

theorem Progress.inv {s t : State} (h : Progress s t) (hs : s.Inv) : t.Inv := by
  obtain ⟨hdec, hdstat, hcstat⟩ := State.countersFit_iff.1 hs.counters
  refine ⟨h.params ▸ h.queue hs.queue, h.dec.fsm hs.fsm, State.countersFit_iff.2 ?_⟩
  rw [h.params]
  exact ⟨h.dec.fit hdec, h.dstat.fit hdstat, h.cstat.fit hcstat⟩

/-- Moves of the agents, output and free values make progress, for they leave the core as it is. -/
theorem progress_of_core_eq {s t : State} (hparams : t.params = s.params) (hdec : t.dec = s.dec)
    (hqueue : t.queue = s.queue) (hdstat : t.dstat = s.dstat) (hcstat : t.cstat = s.cstat) : Progress s t where
  params := hparams
  dec := hdec ▸ .refl _ _
  queue := hqueue ▸ id
  dstat := hdstat ▸ .refl _ _
  cstat := hcstat ▸ .refl _ _

theorem Progress.refl (s : State) : Progress s s := progress_of_core_eq rfl rfl rfl rfl rfl

theorem progress_emit (on : Bool) (e : Event) (s : State) : Progress s (emit on e s) :=
  progress_of_core_eq rfl rfl rfl rfl rfl

theorem progress_giveResult (r : Result) (s : State) : Progress s (giveResult r s) :=
  progress_of_core_eq rfl rfl rfl rfl rfl

theorem progress_setCtx (a : Agent) (c : AgentCtx) (s : State) : Progress s (setCtx a c s) :=
  progress_of_core_eq (setCtx_params ..) (setCtx_dec ..) (setCtx_queue ..) (setCtx_dstat ..) (setCtx_cstat ..)

theorem progress_turnTaken (s : State) (turns : List Agent) (a : Agent) :
    Progress s { s with turns := turns, running := a } :=
  progress_of_core_eq rfl rfl rfl rfl rfl

theorem progress_dec {s : State} {d : Decoder} (h : s.dec.Becomes s.params d) : Progress s { s with dec := d } :=
  ⟨rfl, h, id, .refl _ _, .refl _ _⟩

theorem progress_queue {s : State} {q : Queue} (h : Queue.Inv s.params s.queue → Queue.Inv s.params q) :
    Progress s { s with queue := q } :=
  ⟨rfl, .refl _ _, h, .refl _ _, .refl _ _⟩

/-! ### The decoder -/

theorem progress_setFsm {f : Fsm} (hf : Fsm.between f = true) (s : State) : Progress s (setFsm f s) :=
  progress_dec ⟨rfl, fun _ => hf, id, id⟩

theorem progress_endGroup (s : State) : Progress s (endGroup s) where
  params := rfl
  dec := ⟨rfl, id, id, inc_fits⟩
  queue := id
  dstat := ⟨.refl _ _, .refl _ _, counterRises_inc _ _, .refl _ _, .refl _ _, .refl _ _, id⟩
  cstat := .refl _ _

theorem progress_demuxY1 (b : Byte) (s : State) : Progress s (demuxY1 b s) := progress_dec ⟨rfl, id, id, id⟩

theorem progress_demuxCb (b : Byte) (s : State) : Progress s (demuxCb b s) := progress_dec ⟨rfl, id, id, id⟩

theorem progress_demuxY2 (b : Byte) (s : State) : Progress s (demuxY2 b s) := progress_dec ⟨rfl, id, id, id⟩

theorem progress_demuxCr (b : Byte) (s : State) : Progress s (demuxCr b s) :=
  have hstore : Progress s (storeCr b s) := progress_dec ⟨rfl, id, id, id⟩
  ((hstore.trans (progress_emit ..)).trans (progress_emit ..)).trans (progress_endGroup _)

theorem progress_demux (b : Byte) (s : State) : Progress s (demux b s) := by
  unfold demux
  split
  case h_1 => exact progress_demuxY1 b s
  case h_2 => exact progress_demuxCb b s
  case h_3 => exact progress_demuxY2 b s
  case h_4 => exact progress_demuxCr b s

theorem progress_offerData (b : Byte) (s : State) : Progress s (offerData b s) := by
  unfold offerData
  split
  · exact progress_demux b s
  · exact .refl s

/-- The arm shared by the rows whose byte is also data. -/
theorem progress_offerData_setFsm {f : Fsm} (hf : Fsm.between f = true) (b : Byte) (s : State) :
    Progress s (offerData b (setFsm f s)) :=
  (progress_setFsm hf s).trans (progress_offerData b _)

theorem progress_vsyncRise (s : State) : Progress s (vsyncRise s) := by
  refine Progress.trans ?_ (progress_emit ..)
  exact
    { params := rfl
      dec := ⟨rfl, id, fun _ => zero_fits _, fun _ => zero_fits _⟩
      queue := id
      dstat := ⟨counterRises_inc _ _, .refl _ _, .refl _ _, .refl _ _, .refl _ _, .refl _ _,
        fun _ => cut_fits _ _⟩
      cstat := .refl _ _ }

theorem progress_bumpLine (s : State) : Progress s (bumpLine s) :=
  progress_dec ⟨rfl, id, inc_fits, id⟩

theorem progress_hsyncRise (s : State) : Progress s (hsyncRise s) := by
  refine (Progress.trans ?_ (progress_emit ..)).trans (progress_bumpLine _)
  exact
    { params := rfl
      dec := ⟨rfl, id, id, fun _ => zero_fits _⟩
      queue := id
      dstat := ⟨.refl _ _, counterRises_inc _ _, .refl _ _, .refl _ _, .refl _ _, .refl _ _, id⟩
      cstat := .refl _ _ }

theorem progress_vsyncCheck (f : SyncFlags) (s : State) : Progress s (vsyncCheck f s) := by
  unfold vsyncCheck
  split
  · exact progress_vsyncRise s
  · exact .refl s

theorem progress_hsyncCheck (f : SyncFlags) (s : State) : Progress s (hsyncCheck f s) := by
  unfold hsyncCheck
  split
  · exact progress_hsyncRise s
  · exact .refl s

theorem progress_savCheck (f : SyncFlags) (s : State) : Progress s (savCheck f s) := by
  unfold savCheck
  split
  · exact progress_dec ⟨rfl, id, id, fun _ => zero_fits _⟩
  · exact progress_dec ⟨rfl, id, id, id⟩

theorem progress_syncControl (f : SyncFlags) (s : State) : Progress s (syncControl f s) :=
  have hflags (u : State) : Progress u (storeFlags f u) := progress_dec ⟨rfl, id, id, id⟩
  (((progress_vsyncCheck f s).trans (progress_hsyncCheck f _)).trans (progress_savCheck f _)).trans (hflags _)

theorem progress_armXyLate (f : SyncFlags) (s : State) : Progress s (armXyLate f s) :=
  (progress_syncControl f s).trans (progress_setFsm rfl _)

/-! SYNC neither reads nor writes the detector's state (41 R160), so passing through CONTROL_BYTE leaves no mark. -/

theorem vsyncCheck_setFsm (f : SyncFlags) (g : Fsm) (s : State) :
    vsyncCheck f (setFsm g s) = setFsm g (vsyncCheck f s) := by
  rw [vsyncCheck, vsyncCheck, apply_ite (setFsm g)]
  rfl

theorem hsyncCheck_setFsm (f : SyncFlags) (g : Fsm) (s : State) :
    hsyncCheck f (setFsm g s) = setFsm g (hsyncCheck f s) := by
  rw [hsyncCheck, hsyncCheck, apply_ite (setFsm g)]
  rfl

theorem savCheck_setFsm (f : SyncFlags) (g : Fsm) (s : State) :
    savCheck f (setFsm g s) = setFsm g (savCheck f s) := by
  rw [savCheck, savCheck, apply_ite (setFsm g)]
  rfl

theorem syncControl_setFsm (f : SyncFlags) (g : Fsm) (s : State) :
    syncControl f (setFsm g s) = setFsm g (syncControl f s) := by
  simp only [syncControl, vsyncCheck_setFsm, hsyncCheck_setFsm, savCheck_setFsm]
  rfl

/-- A control byte has the same effect in FF0000 and in CONTROL_BYTE (40 R144, R145). -/
theorem armXy_eq_armXyLate (f : SyncFlags) (s : State) : armXy f s = armXyLate f s := by
  unfold armXy
  rw [syncControl_setFsm]
  rfl

theorem progress_armXy (f : SyncFlags) (s : State) : Progress s (armXy f s) :=
  armXy_eq_armXyLate f s ▸ progress_armXyLate f s

theorem progress_armFf00Zero (s : State) : Progress s (armFf00Zero s) := by
  unfold armFf00Zero
  split
  · exact progress_offerData_setFsm rfl _ s
  · exact progress_setFsm rfl s

theorem progress_detect (b : Byte) (s : State) : Progress s (detect b s) := by
  unfold detect
  split
  · split <;> exact progress_offerData_setFsm rfl _ s
  · split <;> exact progress_offerData_setFsm rfl _ s
  · split
    · exact progress_armFf00Zero s
    · exact progress_offerData_setFsm rfl _ s
  · exact progress_armXy _ s
  · exact progress_armXyLate _ s
  all_goals exact progress_offerData_setFsm rfl _ s

theorem progress_applyErrorPolicy (s : State) : Progress s (applyErrorPolicy s) := by
  unfold applyErrorPolicy
  split
  next => exact .refl s
  next hfree =>
    exact
      { params := rfl
        dec := .refl _ _
        queue := id
        dstat := ⟨.refl _ _, .refl _ _, .refl _ _, errorRises_notBelow hfree _ _, errorRises_notBelow hfree _ _,
          errorRises_notBelow hfree _ _, id⟩
        cstat := .refl _ _ }

theorem Progress.thenErrorPolicy {s t : State} (h : Progress s t) : Progress s (applyErrorPolicy t) :=
  h.trans (progress_applyErrorPolicy t)

theorem progress_feedByte (b : Byte) (s : State) : Progress s (feedByte b s) :=
  (progress_detect b s).thenErrorPolicy

/-! ### The capture stage -/

theorem progress_countInterrupt (s : State) : Progress s (countInterrupt s) :=
  ⟨rfl, .refl _ _, id, .refl _ _, ⟨counterRises_inc _ _, .refl _ _, .refl _ _, rfl, id, id⟩⟩

theorem progress_countCaptured (s : State) : Progress s (countCaptured s) :=
  ⟨rfl, .refl _ _, id, .refl _ _, ⟨.refl _ _, counterRises_inc _ _, .refl _ _, rfl, id, id⟩⟩

theorem progress_countOverflow (s : State) : Progress s (countOverflow s) :=
  ⟨rfl, .refl _ _, id, .refl _ _, ⟨.refl _ _, .refl _ _, counterRises_inc _ _, rfl, id, id⟩⟩

theorem progress_stampService (s : State) : Progress s (stampService s) :=
  ⟨rfl, .refl _ _, id, .refl _ _, ⟨.refl _ _, .refl _ _, .refl _ _, rfl, fun _ => cut_fits _ _, fun _ => cut_fits _ _⟩⟩

theorem progress_pushStep {b : Byte} {s t : State} {acc : Bool} (h : pushStep b s = .ok (t, acc)) :
    Progress s t := by
  obtain ⟨-, -, rfl⟩ | ⟨hf, -, -, rfl⟩ := pushStep_cases h
  · exact progress_countOverflow s
  · exact progress_queue fun hq => hq.pushed hf b

/-- The read cursor passes a byte only where one is queued. -/
theorem progress_popped {s : State} (hne : Queue.isEmpty s.queue = false) :
    Progress s { s with queue := Queue.popped s.params s.queue } :=
  progress_queue fun hq => hq.popped hne

theorem progress_popStep {s t : State} {data : Option Byte} (h : popStep s = .ok (t, data)) : Progress s t := by
  obtain ⟨-, -, rfl⟩ | ⟨hne, -, -, rfl⟩ := popStep_cases h
  · exact .refl _
  · exact progress_popped hne

theorem progress_stageUnless (thenFeed : Bool) (b : Byte) (s : State) : Progress s (stageUnless thenFeed b s) :=
  progress_of_core_eq (by simp) (by simp) (by simp) (by simp) (by simp)

theorem progress_finishDrain (got : List Byte) (thenFeed : Bool) (s : State) :
    Progress s (finishDrain got thenFeed s) :=
  progress_of_core_eq (by simp) (by simp) (by simp) (by simp) (by simp)

theorem progress_drainStep {d : Drain} {s t : State} (h : drainStep d s = .ok t) : Progress s t := by
  obtain ⟨-, rfl⟩ | ⟨left, -, hne, -, b, u, -, rfl, rfl⟩ := drainStep_cases h
  · exact progress_finishDrain _ _ s
  · refine ((progress_popped hne).trans (progress_stageUnless d.thenFeed b _)).trans ?_
    split
    · exact progress_finishDrain _ _ _
    · exact progress_setCtx _ _ _

theorem progress_execPush {b : Byte} {s t : State} (h : execPush b s = .next t) : Progress s t := by
  unfold execPush at h
  split at h
  next hpush => exact ((progress_pushStep hpush).trans (progress_giveResult _ _)).of_next h
  next => cases h

theorem progress_execPop {s t : State} (h : execPop s = .next t) : Progress s t := by
  unfold execPop at h
  split at h
  next hpop => exact ((progress_popStep hpop).trans (progress_giveResult _ _)).of_next h
  next hpop =>
    exact (((progress_popStep hpop).trans (progress_setCtx _ _ _)).trans (progress_giveResult _ _)).of_next h
  next => cases h

theorem progress_sampleBuffered {b : Byte} {s t : State} (h : sampleBuffered b s = .ok t) : Progress s t := by
  unfold sampleBuffered at h
  split at h
  next hpush =>
    cases h
    refine (progress_pushStep hpush).trans ?_
    split
    · exact progress_countCaptured _
    · exact .refl _
  next => cases h

theorem progress_execSample {b : Byte} {s t : State} (h : execSample b s = .next t) : Progress s t := by
  have hint := progress_countInterrupt s
  unfold execSample at h
  split at h
  case h_1 =>
    split at h
    next hsample => exact ((hint.trans (progress_sampleBuffered hsample)).trans (progress_stampService _)).of_next h
    next => cases h
  case h_2 =>
    exact (((hint.trans (progress_countCaptured _)).trans (progress_feedByte b _)).trans
      (progress_stampService _)).of_next h

/-! ### Every instruction, and every step -/

/-- What an instruction does to the core's registers: progress, or it is SETOBS or a reset of one of the statistics. -/
theorem exec_cases {i : Instr} {s t : State} (h : exec i s = .next t) :
    Progress s t ∨
    (∃ k v, i = .setobs k v ∧ t = { s with dec := { s.dec with obs := setObs k v s.dec.obs } }) ∨
    (i = .dstatrst ∧ t = { s with dstat := DecoderStats.zero }) ∨
    (i = .cstatrst ∧ t = { s with cstat := CaptureStats.zero }) := by
  cases i with
  | setobs k v => cases h; exact .inr (.inl ⟨k, v, rfl, rfl⟩)
  | dstatrst => cases h; exact .inr (.inr (.inl ⟨rfl, rfl⟩))
  | cstatrst => cases h; exact .inr (.inr (.inr ⟨rfl, rfl⟩))
  | reset =>
    have hreset : s.dec.Becomes s.params (resetDecoder s.dec) :=
      ⟨rfl, fun _ => rfl, fun _ => zero_fits _, fun _ => zero_fits _⟩
    exact .inl ((progress_dec hreset).of_next h)
  | pbyte b => exact .inl ((progress_feedByte b s).of_next h)
  | push b => exact .inl (progress_execPush h)
  | drain n => exact .inl (progress_drainStep (eq_ok_of_outcome_eq_next h))
  | pop => exact .inl (progress_execPop h)
  | sample b => exact .inl (progress_execSample h)
  | rdstat _ | avail | ycc2rgb _ _ _ | rgb2565 _ _ _ | ycc2gray _ _ _ =>
    exact .inl ((progress_giveResult _ s).of_next h)
  | unassignedE | unassignedF | dataDiscard _ => exact .inl ((Progress.refl s).of_next h)
  | idleFf | idleAny _ | ffZero | ffAny _ | ff00Any _ | undefAny _ =>
    exact .inl ((progress_offerData_setFsm rfl _ s).thenErrorPolicy.of_next h)
  | ff00Zero => exact .inl ((progress_armFf00Zero s).thenErrorPolicy.of_next h)
  | xy f => exact .inl ((progress_armXy f s).thenErrorPolicy.of_next h)
  | xyLate f => exact .inl ((progress_armXyLate f s).thenErrorPolicy.of_next h)
  | dataY1 b => exact .inl ((progress_demuxY1 b s).of_next h)
  | dataCb b => exact .inl ((progress_demuxCb b s).of_next h)
  | dataY2 b => exact .inl ((progress_demuxY2 b s).of_next h)
  | dataCr b => exact .inl ((progress_demuxCr b s).of_next h)

/-- An instruction keeps the invariant of the machine. -/
theorem inv_exec {i : Instr} {s t : State} (h : exec i s = .next t) (hs : s.Inv) : t.Inv := by
  obtain ⟨hdec, hdstat, hcstat⟩ := State.countersFit_iff.1 hs.counters
  obtain hp | ⟨k, v, -, rfl⟩ | ⟨-, rfl⟩ | ⟨-, rfl⟩ := exec_cases h
  · exact hp.inv hs
  · exact ⟨hs.queue, hs.fsm, State.countersFit_iff.2 ⟨⟨hdec.lineCount, hdec.pixelCount⟩, hdstat, hcstat⟩⟩
  · exact ⟨hs.queue, hs.fsm, State.countersFit_iff.2 ⟨hdec, fit_decoderStats_zero _, hcstat⟩⟩
  · exact ⟨hs.queue, hs.fsm, State.countersFit_iff.2 ⟨hdec, hdstat, fit_captureStats_zero _⟩⟩

theorem params_exec {i : Instr} {s t : State} (h : exec i s = .next t) : t.params = s.params := by
  obtain hp | ⟨k, v, -, rfl⟩ | ⟨-, rfl⟩ | ⟨-, rfl⟩ := exec_cases h
  · exact hp.params
  all_goals rfl

/-- What is left of a step once it is fetched makes progress from `s`: the instruction's own state does, or the state
that is already known. -/
def Fetched.ProgressFrom (s : State) : Fetched → Prop
  | .instr _ u => Progress s u
  | .done o => ∀ t, o = .next t → Progress s t

theorem Fetched.ProgressFrom.after {s u : State} {f : Fetched} (h : Progress s u) (hf : f.ProgressFrom u) :
    f.ProgressFrom s := by
  cases f with
  | instr i v => exact h.trans hf
  | done o => exact fun t ht => h.trans (hf t ht)

theorem progressFrom_drainStep (d : Drain) (s : State) : (Fetched.done (outcome (drainStep d s))).ProgressFrom s :=
  fun _ ht => progress_drainStep (eq_ok_of_outcome_eq_next ht)

theorem progressFrom_startRequest (r : Request) (s : State) : (startRequest r s).ProgressFrom s := by
  cases r with
  | command w => exact .refl s
  | byte b => exact .refl s
  | drainMax n => exact .refl s
  | edge b => exact .refl s
  | feed =>
    simp only [startRequest]
    split
    · exact fun t ht => (Progress.refl s).of_next ht
    · exact progress_setCtx _ _ s
  | service n => exact progressFrom_drainStep _ s
  | discard => exact fun t ht => (progress_setCtx _ _ s).of_next ht

theorem progressFrom_agentStep (s : State) : (agentStep s).ProgressFrom s := by
  unfold agentStep
  split
  · exact progressFrom_drainStep _ s
  · split
    · exact fun t ht => (Progress.refl s).of_next ht
    · exact (progressFrom_startRequest _ _).after (progress_setCtx _ _ s)

theorem progressFrom_fetch (s : State) : (fetch s).ProgressFrom s := by
  unfold fetch
  split
  · exact fun t ht => (Progress.refl s).of_next ht
  · exact (progressFrom_agentStep _).after (progress_turnTaken s _ _)

/-- A step is progress, or progress and then an instruction. -/
theorem step_cases {s t : State} (h : step s = .next t) :
    Progress s t ∨ ∃ i u, Progress s u ∧ exec i u = .next t := by
  have hfetch := progressFrom_fetch s
  unfold step at h
  split at h
  next i u heq =>
    rw [heq] at hfetch
    exact .inr ⟨i, u, hfetch, h⟩
  next o heq =>
    rw [heq] at hfetch
    exact .inl (hfetch t h)

/-! ### The invariant and the parameters -/

/-- Settles O53: a step is progress, which keeps the invariant, and at most one instruction, which keeps it too. -/
theorem everyStepKeepsTheInvariant : Obligations.EveryStepKeepsTheInvariant := by
  intro s hs
  refine ⟨fun t h => ?_, fun i t h => inv_exec h hs⟩
  obtain hp | ⟨i, u, hp, h⟩ := step_cases h
  · exact hp.inv hs
  · exact inv_exec h (hp.inv hs)

/-- Settles O52: at power-on every counter is 0, the detector is in IDLE and nothing is queued. -/
theorem invariantHoldsAtPowerOn : Obligations.InvariantHoldsAtPowerOn :=
  have hpowerOn (p : Params) : (State.powerOn p).Inv :=
    ⟨queueInv_powerOn p, rfl, State.countersFit_iff.2
      ⟨fit_decoder_powerOn p, fit_decoderStats_zero p, fit_captureStats_zero p⟩⟩
  ⟨hpowerOn, hpowerOn _⟩

/-- Settles O56: neither progress nor an instruction writes the parameters. -/
theorem parametersAreFixed : Obligations.ParametersAreFixed := by
  intro s t
  refine ⟨fun h => ?_, fun i h => params_exec h⟩
  obtain hp | ⟨i, u, hp, h⟩ := step_cases h
  · exact hp.params
  · exact (params_exec h).trans hp.params

/-! ### The observers and the statistics -/

/-- Settles O57: SETOBS is the one case of an instruction that writes the observers. -/
theorem onlySetobsWritesTheObservers : Obligations.OnlySetobsWritesTheObservers := by
  intro i s t h hi
  obtain hp | ⟨k, v, rfl, -⟩ | ⟨-, rfl⟩ | ⟨-, rfl⟩ := exec_cases h
  · exact hp.dec.obs
  · exact absurd rfl (hi k v)
  all_goals rfl

/-- The Decoder Statistics move forward under every instruction but their reset. -/
theorem dstat_becomes_exec {i : Instr} {s t : State} (h : exec i s = .next t) (hi : i ≠ .dstatrst) :
    s.dstat.Becomes s.params t.dstat := by
  obtain hp | ⟨k, v, -, rfl⟩ | ⟨rfl, -⟩ | ⟨-, rfl⟩ := exec_cases h
  · exact hp.dstat
  · exact .refl _ _
  · exact absurd rfl hi
  · exact .refl _ _

/-- The Capture Statistics move forward under every instruction but their reset. -/
theorem cstat_becomes_exec {i : Instr} {s t : State} (h : exec i s = .next t) (hi : i ≠ .cstatrst) :
    s.cstat.Becomes s.params t.cstat := by
  obtain hp | ⟨k, v, -, rfl⟩ | ⟨-, rfl⟩ | ⟨rfl, -⟩ := exec_cases h
  · exact hp.cstat
  · exact .refl _ _
  · exact .refl _ _
  · exact absurd rfl hi

/-- Settles O58: how the three error counters and `missed_samples` move is part of how their groups move. -/
theorem errorCountersFollowThePolicy : Obligations.ErrorCountersFollowThePolicy := by
  intro i s t h
  refine ⟨fun hi => ?_, fun hi => (cstat_becomes_exec h hi).missed⟩
  obtain ⟨-, -, -, htiming, hsync, hdata, -⟩ := dstat_becomes_exec h hi
  exact ⟨fun hp => ⟨htiming.frozen hp, hsync.frozen hp, hdata.frozen hp⟩, htiming.le, hsync.le, hdata.le,
    htiming.fits, hsync.fits, hdata.fits⟩

/-- Settles O59: each of the six counters rises, as part of how its group moves. -/
theorem statisticsNeverFall : Obligations.StatisticsNeverFall := by
  intro i s t h
  refine ⟨fun hi => ?_, fun hi => ?_⟩
  · obtain ⟨hframes, hlines, hpixels, -⟩ := dstat_becomes_exec h hi
    exact ⟨hframes.le, hlines.le, hpixels.le⟩
  · obtain ⟨hinterrupts, hcaptured, hoverflows, -⟩ := cstat_becomes_exec h hi
    exact ⟨hinterrupts.le, hcaptured.le, hoverflows.le⟩

/-! ### The counts of one SAMPLE (44 R226) -/

/-- Below its top a counter counts. -/
theorem inc_of_succ_fits {w : Width} {c top : Nat} (htop : fits w (top + 1) = true) (hc : c ≤ top) :
    inc w c = c + 1 := by
  cases w with
  | bits n =>
    rw [fits_bits] at htop
    exact if_pos (by omega)
  | unbounded => rfl

/-- SAMPLE in buffered mode: one interrupt, and one byte captured if the PUSH is accepted. -/
theorem execSample_buffered {b : Byte} {s t : State} {acc : Bool} (hmode : s.params.mode = .buffered)
    (hpush : pushStep b (countInterrupt s) = .ok (t, acc)) :
    execSample b s = .next (stampService (if acc then countCaptured t else t)) := by
  simp [execSample, sampleBuffered, hmode, hpush]

/-- SAMPLE in direct mode: one interrupt, one byte captured, and a PBYTE step. -/
theorem execSample_direct {b : Byte} {s : State} (hmode : s.params.mode = .direct) :
    execSample b s = .next (stampService (feedByte b (countCaptured (countInterrupt s)))) := by
  simp [execSample, hmode]

@[simp] theorem countInterrupt_cstat (s : State) : (countInterrupt s).cstat =
    { s.cstat with interruptsHandled := inc s.params.statw s.cstat.interruptsHandled } := rfl

@[simp] theorem countCaptured_cstat (s : State) : (countCaptured s).cstat =
    { s.cstat with bytesCaptured := inc s.params.statw s.cstat.bytesCaptured } := rfl

@[simp] theorem countOverflow_cstat (s : State) : (countOverflow s).cstat =
    { s.cstat with bufferOverflows := inc s.params.statw s.cstat.bufferOverflows } := rfl

@[simp] theorem stampService_cstat (s : State) : (stampService s).cstat =
    { s.cstat with lastServiceTime := readNow s, avgServiceTime := readAvgServiceTime s } := rfl

/-- Settles O51: a SAMPLE counts one interrupt, and either one captured byte or one overflow. -/
theorem interruptsAreCapturedOrOverflown : Obligations.InterruptsAreCapturedOrOverflown := by
  intro b s hwr hsum hfits
  have hcount {c : Nat} (hc : c ≤ s.cstat.interruptsHandled) : inc s.params.statw c = c + 1 :=
    inc_of_succ_fits hfits hc
  have hint := hcount le_rfl
  have hcap := hcount (c := s.cstat.bytesCaptured) (by omega)
  have hover := hcount (c := s.cstat.bufferOverflows) (by omega)
  cases hmode : s.params.mode with
  | buffered =>
    obtain ⟨t, acc, hpush⟩ := pushStep_ok (b := b) (s := countInterrupt s) hwr
    refine ⟨_, execSample_buffered hmode hpush, ?_⟩
    obtain ⟨-, rfl, rfl⟩ | ⟨-, -, rfl, rfl⟩ := pushStep_cases hpush
    · simp [hint, hover]
      omega
    · simp [hint, hcap]
      omega
  | direct =>
    refine ⟨_, execSample_direct hmode, ?_⟩
    simp [(decoderOnly_feedByte b _).cstat, hint, hcap]
    omega

/-! ### The staged byte of a POP (10_state.md R55) -/

/-- A POP that finds a byte takes the one at the read cursor. -/
theorem popStep_of_nonempty {s : State} (hne : Queue.isEmpty s.queue = false) (hrd : s.queue.rd < s.params.qcap) :
    popStep s = .ok ({ s with queue := Queue.popped s.params s.queue },
      some (cellValue s.queue.buf s.queue.rd)) := by
  simp [popStep, hne, Queue.remove, memRead_ok hrd, Queue.popped]

theorem execPop_of_nonempty {s : State} (hne : Queue.isEmpty s.queue = false) (hrd : s.queue.rd < s.params.qcap) :
    execPop s = .next (giveResult (.popped (some (cellValue s.queue.buf s.queue.rd)))
      (stage (cellValue s.queue.buf s.queue.rd) { s with queue := Queue.popped s.params s.queue })) := by
  simp [execPop, popStep_of_nonempty hne hrd]

@[simp] theorem ctxOf_giveResult (r : Result) (s : State) (a : Agent) : ctxOf (giveResult r s) a = ctxOf s a := by
  cases a <;> rfl

@[simp] theorem ctxOf_withQueue (s : State) (q : Queue) (a : Agent) : ctxOf { s with queue := q } a = ctxOf s a := by
  cases a <;> rfl

theorem ctxOf_stage_running (b : Byte) (s : State) : ctxOf (stage b s) s.running =
    { ctxOf s s.running with staging := (ctxOf s s.running).staging ++ [b] } := ctxOf_setCtx_same ..

/-- Settles O40: a POP that finds a byte stages it, and moves no other agent. -/
theorem popStagesTheByte : Obligations.PopStagesTheByte := by
  intro s hoccupied hrd
  have hne : Queue.isEmpty s.queue = false := Bool.eq_false_iff.2 (hoccupied ∘ isEmpty_iff.1)
  have hpop : exec .pop s = _ := execPop_of_nonempty hne hrd
  obtain ⟨hothers, hturns, hrunning, -, -⟩ := runnerOnly_exec hpop
  refine ⟨_, hpop, ?_, hothers, hturns, hrunning, ?_⟩
  · have hstage := ctxOf_stage_running (cellValue s.queue.buf s.queue.rd)
      { s with queue := Queue.popped s.params s.queue }
    simpa using hstage
  · simp

end Sys2Proof.Machine
end

section
/-! The queue memory (20_memory.md): PUSH and POP as first in, first out on the queued bytes, and the fault of a cursor
outside the memory. -/

namespace Sys2Proof.Machine

open Sys2Proof

/-! ### The queued bytes under PUSH and POP (R77, R84) -/

/-- A queue that is not full has room for another byte. -/
theorem Queue.Inv.count_lt {p : Params} {q : Queue} (h : Queue.Inv p q) (hf : q.full = false) :
    Queue.count p q < p.qcap := by
  obtain ⟨hwr, hrd, -, -, -, -⟩ := h
  simp only [count_eq_ite hwr hrd, hf, Bool.false_eq_true, if_false]
  split_ifs <;> omega

/-- No queued byte lies in the cell a PUSH writes. -/
theorem Queue.Inv.cell_ne_wr {p : Params} {q : Queue} (h : Queue.Inv p q) (hf : q.full = false) {k : Nat}
    (hk : k < Queue.count p q) : (q.rd + k) % p.qcap ≠ q.wr := by
  intro hcell
  have hroom := h.count_lt hf
  have hmod : q.rd + k ≡ q.rd + Queue.count p q [MOD p.qcap] := hcell.trans h.wr_eq.symm
  have hk_eq := (Nat.ModEq.add_left_cancel' q.rd hmod).eq_of_lt_of_lt (hk.trans hroom) hroom
  omega

/-- A PUSH that finds room puts its byte behind the queued ones. -/
theorem Queue.Inv.contents_pushed {p : Params} {q : Queue} (h : Queue.Inv p q) (hf : q.full = false) (b : Byte) :
    Queue.contents p (Queue.pushed p b q) = Queue.contents p q ++ [b] := by
  have hold : ∀ k ∈ List.range (Queue.count p q),
      cellValue (Memory.store q.buf q.wr b) ((q.rd + k) % p.qcap) = cellValue q.buf ((q.rd + k) % p.qcap) :=
    fun k hk => cellValue_store_other _ (h.cell_ne_wr hf (List.mem_range.1 hk)) b
  have hnew : cellValue (Memory.store q.buf q.wr b) ((q.rd + Queue.count p q) % p.qcap) = b := by
    rw [h.wr_eq, cellValue_store_same]
  rw [Queue.contents, h.count_pushed hf b, List.range_succ, List.map_append]
  exact congrArg₂ (· ++ ·) (List.map_congr_left hold) (congrArg ([·]) hnew)

/-- The oldest queued byte is the one at the read cursor, and the rest are what a POP leaves. -/
theorem Queue.Inv.contents_eq_cons {p : Params} {q : Queue} (h : Queue.Inv p q) (hne : Queue.isEmpty q = false) :
    Queue.contents p q = cellValue q.buf q.rd :: Queue.contents p (Queue.popped p q) := by
  have hcell (k : Nat) : (q.rd + (k + 1)) % p.qcap = (advance p q.rd + k) % p.qcap := by
    rw [advance, Nat.mod_add_mod, Nat.add_right_comm, Nat.add_assoc]
  rw [Queue.contents, Queue.contents, ← h.count_popped hne, List.range_succ_eq_map]
  simp [Queue.popped, hcell, Nat.mod_eq_of_lt h.rd_lt]

/-- An empty queue holds no byte. -/
theorem contents_of_isEmpty {p : Params} {q : Queue} (he : Queue.isEmpty q = true) : Queue.contents p q = [] := by
  obtain ⟨hmeet, hf⟩ := isEmpty_iff.1 he
  simp [Queue.contents, Queue.count, hmeet, hf]

/-! ### PUSH and POP by what they find (44 R220, R221) -/

theorem execPush_of_full {b : Byte} {s : State} (hf : s.queue.full = true) :
    execPush b s = .next (giveResult (.pushAccepted false) (countOverflow s)) := by
  simp [execPush, pushStep, hf]

theorem execPush_of_room {b : Byte} {s : State} (hf : s.queue.full = false) (hwr : s.queue.wr < s.params.qcap) :
    execPush b s = .next (giveResult (.pushAccepted true)
      { s with queue := Queue.pushed s.params b s.queue }) := by
  simp [execPush, pushStep, Queue.insert, memWrite_ok hwr, Queue.pushed, hf]

theorem execPop_of_isEmpty {s : State} (he : Queue.isEmpty s.queue = true) :
    execPop s = .next (giveResult (.popped none) s) := by
  simp [execPop, popStep, he]

/-- Settles O46: a PUSH writes no queued cell, and the cells queued after a POP were queued before it. -/
theorem queueIsFirstInFirstOut : Obligations.QueueIsFirstInFirstOut := by
  intro s hinv
  constructor
  · intro b
    cases hf : s.queue.full with
    | true => exact ⟨_, execPush_of_full hf, by simp⟩
    | false => exact ⟨_, execPush_of_room hf hinv.wr_lt, by simpa using hinv.contents_pushed hf b⟩
  · cases he : Queue.isEmpty s.queue with
    | true => exact ⟨_, execPop_of_isEmpty he, by simp [contents_of_isEmpty he]⟩
    | false => exact ⟨_, execPop_of_nonempty he hinv.rd_lt, by simp [hinv.contents_eq_cons he]⟩

/-! ### A cursor outside the memory (R71) -/

/-- A queue with room does not by itself keep a PUSH from a fault: the write cursor must be in range too. -/
theorem pushStep_of_wr_outside {b : Byte} {s : State} (hf : s.queue.full = false) (hwr : s.params.qcap ≤ s.queue.wr) :
    pushStep b s = .error .bufIndexOutOfRange := by
  simp [pushStep, hf, Queue.insert, memWrite, Nat.not_lt.2 hwr]

/-- Nor does a queued byte keep a POP from a fault: the read cursor must be in range too. -/
theorem popStep_of_rd_outside {s : State} (hne : Queue.isEmpty s.queue = false) (hrd : s.params.qcap ≤ s.queue.rd) :
    popStep s = .error .bufIndexOutOfRange := by
  simp [popStep, hne, Queue.remove, memRead, Nat.not_lt.2 hrd]

/-- Settles O45: PUSH and SAMPLE run one `pushStep`, POP and DRAIN one `popStep`, and each passes its fault on. -/
theorem cursorOutsideTheMemoryFaults : Obligations.CursorOutsideTheMemoryFaults := by
  intro b n s
  constructor
  · intro hf hwr
    have hpush := pushStep_of_wr_outside (b := b) hf hwr
    have hsample : pushStep b (countInterrupt s) = .error .bufIndexOutOfRange := pushStep_of_wr_outside hf hwr
    exact ⟨by simp [exec, execPush, hpush], fun hmode => by simp [exec, execSample, hmode, sampleBuffered, hsample]⟩
  · intro hoccupied hrd
    have hne : Queue.isEmpty s.queue = false := Bool.eq_false_iff.2 (hoccupied ∘ isEmpty_iff.1)
    have hpop := popStep_of_rd_outside hne hrd
    exact ⟨by simp [exec, execPop, hpop], by simp [exec, execDrain, outcome, drainStep, hpop]⟩

end Sys2Proof.Machine
end

section
/-! The encoding (30_encoding.md): the operand fields of an encoded word, decoding after encoding and the context of what
is decoded, and what the class of a stream byte and the row of a data byte do. -/

namespace Sys2Proof

open Sys2Proof.Laws

/-! ### The operand fields of an encoded word (R120) -/

/-- Bits of `{a, b}` that lie in `b`. -/
theorem extractLsb'_cat_of_le {k m n : Nat} (a : BitVec m) (b : BitVec n) {i len : Nat} (hi : i + len ≤ n)
    (hn : n ≤ k) : (cat k a b).extractLsb' i len = b.extractLsb' i len := by
  apply BitVec.eq_of_getLsbD_eq
  intro j hj
  have hk : i + j < k := by omega
  have hb : i + j < n := by omega
  simp only [BitVec.getLsbD_extractLsb', getLsbD_cat, hk, hb, decide_true, Bool.true_and, if_true]

theorem extractLsb'_cat_low {k m n : Nat} (a : BitVec m) (b : BitVec n) (hn : n ≤ k) :
    (cat k a b).extractLsb' 0 n = b := by
  rw [extractLsb'_cat_of_le a b (Nat.zero_add n).le hn, BitVec.extractLsb'_eq_self]

theorem extractLsb'_cat_high {k m n : Nat} (a : BitVec m) (b : BitVec n) (hk : n + m ≤ k) :
    (cat k a b).extractLsb' n m = a := by
  apply BitVec.eq_of_getLsbD_eq
  intro j hj
  have hk : n + j < k := by omega
  have ha : ¬ n + j < n := by omega
  simp only [BitVec.getLsbD_extractLsb', getLsbD_cat, hj, hk, ha, decide_true, Bool.true_and, if_false,
    Nat.add_sub_cancel_left]

theorem extractLsb'_setWidth_low {k n : Nat} (a : BitVec n) (hn : n ≤ k) : (a.setWidth k).extractLsb' 0 n = a := by
  rw [BitVec.extractLsb'_setWidth_of_le (by omega), BitVec.extractLsb'_eq_self]

@[simp] theorem argLow_byteArg (b : Byte) : argLow (byteArg b) = b :=
  extractLsb'_setWidth_low b (by decide)

@[simp] theorem argHigh_threeByteArg (x y z : Byte) : argHigh (threeByteArg x y z) = x :=
  extractLsb'_cat_high x (cat 16 y z) (by decide)

@[simp] theorem argMid_threeByteArg (x y z : Byte) : argMid (threeByteArg x y z) = y :=
  (extractLsb'_cat_of_le x (cat 16 y z) (by decide) (by decide)).trans (extractLsb'_cat_high y z (by decide))

@[simp] theorem argLow_threeByteArg (x y z : Byte) : argLow (threeByteArg x y z) = z :=
  (extractLsb'_cat_of_le x (cat 16 y z) (by decide) (by decide)).trans (extractLsb'_cat_low y z (by decide))

@[simp] theorem obsKindOfCode_obsKindCode (k : ObsKind) : obsKindOfCode (obsKindCode k) = k := by
  cases k <;> rfl

/-- A control byte carries its four flags (R102, R103). -/
@[simp] theorem controlFlags_controlByteOf (f : SyncFlags) : controlFlags (controlByteOf f) = f := by
  simp only [controlFlags, controlByteOf, getLsbD_cat]
  simp

theorem Params.drainBits_le_maxw (p : Params) : p.drainBits ≤ p.maxw := Nat.min_le_left _ _

theorem Params.drainBits_le_argBits (p : Params) : p.drainBits ≤ 24 := Nat.min_le_right _ _

/-- An operand that DRAIN's field holds is not cut by `arg`. -/
theorem toNat_ofNat_mod_drainBits {p : Params} {n : Nat} (hn : n < 2 ^ p.drainBits) :
    (BitVec.ofNat 24 n).toNat % 2 ^ p.drainBits = n := by
  have harg : n < 2 ^ 24 := hn.trans_le (Nat.pow_le_pow_right two_pos p.drainBits_le_argBits)
  rw [BitVec.toNat_ofNat, Nat.mod_eq_of_lt harg, Nat.mod_eq_of_lt hn]

/-! ### Decoding after encoding -/

/-- Settles O5: the decoder reads back each operand field, and the reading picks the row. -/
theorem encodedInstructionsDecodeBack : Obligations.EncodedInstructionsDecodeBack := by
  intro p i r hwf happlies
  cases i with
  | drain n =>
    simp only [Instr.appliesIn, Bool.and_eq_true, decide_eq_true_eq] at happlies
    obtain ⟨rfl, hn⟩ := happlies
    simp only [decode, encode, decodeCommand, opField_commandWord, argField_commandWord,
      toNat_ofNat_mod_drainBits hn]
    rfl
  | setobs k v =>
    obtain rfl := of_decide_eq_true happlies
    have hkind : (cat 24 (BitVec.ofBool v) (obsKindCode k)).extractLsb' 0 2 = obsKindCode k :=
      extractLsb'_cat_low _ _ (by decide)
    have hvalue : (cat 24 (BitVec.ofBool v) (obsKindCode k)).getLsbD 2 = v := by
      rw [getLsbD_cat]
      simp
    simp only [decode, encode, decodeCommand, opField_commandWord, argField_commandWord, hkind, hvalue,
      obsKindOfCode_obsKindCode]
    rfl
  | rdstat i =>
    obtain rfl := of_decide_eq_true happlies
    have hindex : (i.setWidth 24).extractLsb' 0 4 = i := extractLsb'_setWidth_low i (by decide)
    simp [decode, encode, decodeCommand, opField_commandWord, argField_commandWord, hindex]
  | pbyte _ | push _ | sample _ | ycc2rgb _ _ _ | rgb2565 _ _ _ | ycc2gray _ _ _ | reset | avail | pop
  | dstatrst | cstatrst | unassignedE | unassignedF =>
    obtain rfl := of_decide_eq_true happlies
    simp [decode, encode, decodeCommand, opField_commandWord, argField_commandWord]
  | idleAny _ | ffAny _ | ff00Any _ =>
    obtain rfl := of_decide_eq_true happlies
    exact congrArg Except.ok (if_neg (of_decide_eq_true hwf))
  | xy f | xyLate f =>
    obtain rfl := of_decide_eq_true happlies
    simp [decode, encode, decodeStream]
  | undefAny b =>
    simp only [Instr.appliesIn, Bool.or_eq_true, decide_eq_true_eq] at happlies
    obtain (rfl | rfl) | rfl := happlies <;> rfl
  | idleFf | ffZero | ff00Zero | dataY1 _ | dataCb _ | dataY2 _ | dataCr _ =>
    obtain rfl := of_decide_eq_true happlies
    rfl
  | dataDiscard b =>
    cases r with
    | data act ph =>
      cases act with
      | false => rfl
      | true => cases happlies
    | command _ | stream _ => cases happlies

/-! ### The context of what is decoded -/

/-- Under `p` the instruction is well formed, and a word spells it in the reading `r`. -/
structure Instr.FitsIn (p : Params) (i : Instr) (r : Reading) : Prop where
  wf : wellFormed p i = true
  applies : i.appliesIn p r = true

/-- DRAIN's field holds only operands below `2^MAXW` (R121); the other select codes have operands of every value. -/
theorem fitsIn_decodeCommand (p : Params) (w : CommandWord) :
    (decodeCommand p.drainBits w).FitsIn p (.command p.drainBits) := by
  unfold decodeCommand
  split
  case h_6 =>
    have hfield : (argField w).toNat % 2 ^ p.drainBits < 2 ^ p.drainBits := Nat.mod_lt _ (Nat.two_pow_pos _)
    have hmaxw : 2 ^ p.drainBits ≤ 2 ^ p.maxw := Nat.pow_le_pow_right two_pos p.drainBits_le_maxw
    exact ⟨decide_eq_true (hfield.trans_le hmaxw), by simp [Instr.appliesIn, hfield]⟩
  all_goals exact ⟨rfl, decide_eq_true rfl⟩

/-- A row for every other byte is reached only past the row for its one byte value (R109). -/
theorem fitsIn_decodeStream (p : Params) (f : Fsm) (b : Byte) :
    (decodeStream f b).FitsIn p (.stream f) := by
  cases f with
  | idle | ff | ff00 =>
    simp only [decodeStream]
    split
    next => exact ⟨rfl, rfl⟩
    next hb => exact ⟨decide_eq_true hb, rfl⟩
  | ff0000 | controlByte | undef5 | undef6 | undef7 => exact ⟨rfl, rfl⟩

theorem fitsIn_decodeData (p : Params) (act : Bool) (ph : Phase) (b : Byte) :
    (decodeData act ph b).FitsIn p (.data act ph) := by
  cases act with
  | false => exact ⟨rfl, rfl⟩
  | true => cases ph <;> exact ⟨rfl, rfl⟩

/-- Settles O6: what each of the three decoders answers fits its reading, and `drain_max` is cut to `MAXW` bits. -/
theorem decodedInstructionsFitTheirContext : Obligations.DecodedInstructionsFitTheirContext := by
  intro p
  refine ⟨fun w => ?_, fun f b => ?_, fun act ph b => ?_, fun n => ?_⟩
  · obtain ⟨hwf, happlies⟩ := fitsIn_decodeCommand p w
    exact ⟨hwf, happlies⟩
  · obtain ⟨hwf, happlies⟩ := fitsIn_decodeStream p f b
    exact ⟨hwf, happlies⟩
  · obtain ⟨hwf, happlies⟩ := fitsIn_decodeData p act ph b
    exact ⟨hwf, happlies⟩
  · exact decide_eq_true (Nat.mod_lt n (Nat.two_pow_pos _))

/-- Settles O7: each word is evaluated. -/
theorem specWordsDecode : Obligations.SpecWordsDecode := by
  unfold Obligations.SpecWordsDecode
  decide

end Sys2Proof

namespace Sys2Proof.Machine

open Sys2Proof

/-! ### What the class of a stream byte does (R109) -/

/-- The detector's arm for a byte is the arm of the byte's class. -/
theorem exec_pbyte_eq_exec_decodeStream (b : Byte) (s : State) :
    exec (.pbyte b) s = exec (decodeStream s.dec.fsm b) s := by
  have hpbyte : exec (.pbyte b) s = .next (applyErrorPolicy (detect b s)) := rfl
  rw [hpbyte, detect]
  cases s.dec.fsm with
  | idle | ff | ff00 =>
    simp only [decodeStream]
    split <;> rfl
  | ff0000 | controlByte | undef5 | undef6 | undef7 => rfl

/-- FF00.00 without `DEMUX_MARKER3`: the third marker byte is no data (40 R143). -/
theorem exec_ff00Zero_of_marker_only {s : State} (hmarker : s.params.demuxMarker3 = false) :
    exec .ff00Zero s = .next (applyErrorPolicy (setFsm .ff0000 s)) := by
  simp [exec, execFf00Zero, armFf00Zero, hmarker]

/-- FF00.00 with `DEMUX_MARKER3`: the third marker byte is also data (40 R143). -/
theorem exec_ff00Zero_of_also_data {s : State} (hmarker : s.params.demuxMarker3 = true) :
    exec .ff00Zero s = .next (applyErrorPolicy (offerData 0x00#8 (setFsm .ff0000 s))) := by
  simp [exec, execFf00Zero, armFf00Zero, hmarker]

theorem exec_decodeStream_idle (b : Byte) (s : State) : exec (decodeStream .idle b) s =
    .next (applyErrorPolicy (offerData b (setFsm (if b = 0xFF#8 then .ff else .idle) s))) := by
  simp only [decodeStream]
  split
  next hb => subst hb; rfl
  next => rfl

theorem exec_decodeStream_ff (b : Byte) (s : State) : exec (decodeStream .ff b) s =
    .next (applyErrorPolicy (offerData b (setFsm (if b = 0x00#8 then .ff00 else .idle) s))) := by
  simp only [decodeStream]
  split
  next hb => subst hb; rfl
  next => rfl

/-- XY and XY.LATE have the same effect (40 R144, R145). -/
theorem exec_xyLate_eq_exec_xy (f : SyncFlags) (s : State) : exec (.xyLate f) s = exec (.xy f) s := by
  simp [exec, execXy, execXyLate, armXy_eq_armXyLate]

/-- Settles O14: in each state of the detector the arm of PBYTE is that of the byte's class. -/
theorem pbyteRunsItsStreamClass : Obligations.PbyteRunsItsStreamClass := exec_pbyte_eq_exec_decodeStream

/-- Settles O13: a class's arm is its row by definition, but for FF00.00, which asks for `DEMUX_MARKER3`. -/
theorem streamClassesSetTheirNextState : Obligations.StreamClassesSetTheirNextState := fun _ _ =>
  ⟨rfl, rfl, rfl, rfl, exec_ff00Zero_of_marker_only, exec_ff00Zero_of_also_data, rfl, rfl⟩

/-! ### The control byte (R102, R103, R110) -/

/-- A byte that finds the detector past a marker is XY of its flags. -/
theorem exec_pbyte_eq_exec_xy {s : State} (hfsm : s.dec.fsm = .ff0000 ∨ s.dec.fsm = .controlByte) (b : Byte) :
    exec (.pbyte b) s = exec (.xy (controlFlags b)) s := by
  rw [exec_pbyte_eq_exec_decodeStream]
  obtain hfsm | hfsm := hfsm <;> rw [hfsm]
  · rfl
  · exact exec_xyLate_eq_exec_xy _ s

/-- The flags depend on bits 3 to 6 alone. -/
theorem controlFlags_congr {b c : Byte} (h : ∀ k, 3 ≤ k → k ≤ 6 → b.getLsbD k = c.getLsbD k) :
    controlFlags b = controlFlags c := by
  rw [controlFlags, h 6 (by decide) le_rfl, h 5 (by decide) (by decide), h 4 (by decide) (by decide),
    h 3 le_rfl (by decide), controlFlags]

/-- Settles O15: past a marker a byte runs as XY of its flags, and the flags are four of its bits. -/
theorem controlByteIgnoresItsOtherBits : Obligations.ControlByteIgnoresItsOtherBits := by
  refine ⟨fun _ => rfl, fun b s hfsm => exec_pbyte_eq_exec_xy hfsm b, fun b c s hfsm hbits => ?_⟩
  rw [exec_pbyte_eq_exec_xy hfsm, exec_pbyte_eq_exec_xy hfsm, controlFlags_congr hbits]

/-! ### The second-level reading of a data byte (R104, 42 R189) -/

/-- The DATA row of the active flag and the phase does what the offer of the byte does (40 R140). -/
theorem exec_decodeData (b : Byte) (s : State) :
    exec (decodeData s.dec.active s.dec.phase b) s = .next (offerData b s) := by
  rw [offerData, demux]
  cases s.dec.active with
  | false => rfl
  | true => cases s.dec.phase <;> rfl

/-- Settles O24: in each state that offers the byte its class is an offer in the next state, which is the DATA row. -/
theorem secondLevelReadingAgrees : Obligations.SecondLevelReadingAgrees := by
  intro b s handled
  have handled_of {f g : Fsm} (hfsm : s.dec.fsm = f)
      (hclass : exec (decodeStream f b) s = .next (applyErrorPolicy (offerData b (setFsm g s)))) : handled g :=
    ⟨offerData b (setFsm g s), exec_decodeData b (setFsm g s),
      (exec_pbyte_eq_exec_decodeStream b s).trans (hfsm ▸ hclass)⟩
  refine ⟨fun hfsm => handled_of hfsm (exec_decodeStream_idle b s),
    fun hfsm => handled_of hfsm (exec_decodeStream_ff b s), fun hfsm hb => handled_of hfsm ?_,
    fun hfsm hb hmarker => handled_of hfsm ?_, fun hfsm => ?_⟩
  · rw [decodeStream, if_neg hb]; rfl
  · subst hb; exact exec_ff00Zero_of_also_data hmarker
  · obtain hfsm | hfsm | hfsm := hfsm <;> exact handled_of hfsm rfl

/-- Settles O32: both select codes answer the state they are given. -/
theorem unassignedCodesDoNothing : Obligations.UnassignedCodesDoNothing := fun _ => ⟨rfl, rfl⟩

end Sys2Proof.Machine
end

section
/-! The timing-reference detector (40_timing_reference_detector.md): the step of a byte in each detector state,
the state after a run of bytes, what a run without a marker keeps, and what only the queue operations write. -/

namespace Sys2Proof.Machine

open Sys2Proof

/-! ### The step of a byte, by the state it finds (R141 to R146) -/

/-- A byte that finds the detector in `f` runs as its class there. -/
theorem exec_pbyte_of_fsm {s : State} {f : Fsm} (hfsm : s.dec.fsm = f) (b : Byte) :
    exec (.pbyte b) s = exec (decodeStream f b) s :=
  hfsm ▸ exec_pbyte_eq_exec_decodeStream b s

/-- FF00.ANY: the marker is broken, and its byte is data (R143). -/
theorem exec_decodeStream_ff00_of_ne {b : Byte} (hb : b ≠ 0x00#8) (s : State) :
    exec (decodeStream .ff00 b) s = .next (applyErrorPolicy (offerData b (setFsm .idle s))) := by
  rw [decodeStream, if_neg hb]
  rfl

/-- Settles O8: the classes of IDLE and of FF are two each, and both are data. -/
theorem idleAndFfSteps : Obligations.IdleAndFfSteps := fun b s =>
  ⟨fun hfsm => (exec_pbyte_of_fsm hfsm b).trans (exec_decodeStream_idle b s),
   fun hfsm => (exec_pbyte_of_fsm hfsm b).trans (exec_decodeStream_ff b s)⟩

/-- Settles O9: the byte 00 is FF00.00, with or without `DEMUX_MARKER3`, and any other is FF00.ANY. -/
theorem ff00Step : Obligations.Ff00Step := by
  intro b s hfsm
  rw [exec_pbyte_of_fsm hfsm]
  refine ⟨fun hb hmarker => ?_, fun hb hmarker => ?_, fun hb => exec_decodeStream_ff00_of_ne hb s⟩
  · subst hb; exact exec_ff00Zero_of_marker_only hmarker
  · subst hb; exact exec_ff00Zero_of_also_data hmarker

/-- Settles O10: the byte runs as XY of its flags, and the arm of XY passes through CONTROL_BYTE. -/
theorem controlByteStep : Obligations.ControlByteStep := fun b _ hfsm =>
  exec_pbyte_eq_exec_xy (.inl hfsm) b

/-- Settles O11: the byte's class is XY.LATE, which has the effect of XY. -/
theorem lateControlByteStep : Obligations.LateControlByteStep :=
  ⟨exec_xyLate_eq_exec_xy, fun b _ hfsm => ⟨exec_pbyte_of_fsm hfsm b, exec_pbyte_eq_exec_xy (.inr hfsm) b⟩⟩

/-- Settles O12: the class of each undefined code is UNDEF.ANY. -/
theorem undefinedStateResets : Obligations.UndefinedStateResets := by
  intro b s hfsm
  obtain hfsm | hfsm | hfsm := hfsm <;> exact exec_pbyte_of_fsm hfsm b

/-! ### The state after a byte -/

/-- The detector's state after the byte `b` in the state `f` (R141 to R146). -/
def nextFsm (f : Fsm) (b : Byte) : Fsm :=
  match f with
  | .idle => if b = 0xFF#8 then .ff else .idle
  | .ff => if b = 0x00#8 then .ff00 else .idle
  | .ff00 => if b = 0x00#8 then .ff0000 else .idle
  | .ff0000 | .controlByte | .undef5 | .undef6 | .undef7 => .idle

theorem feedByte_of_exec_pbyte {b : Byte} {s t : State} (h : exec (.pbyte b) s = .next t) : feedByte b s = t :=
  Host.Outcome.next.inj h

/-- Everything a PBYTE step can do before the error-counter policy: the byte is data, it ends a marker and is none, or
it is the control byte. -/
theorem feedByte_cases (b : Byte) (s : State) : ∃ u, feedByte b s = applyErrorPolicy u ∧
    (u = offerData b (setFsm (nextFsm s.dec.fsm b) s) ∨
     u = setFsm (nextFsm s.dec.fsm b) s ∨
     ((s.dec.fsm = .ff0000 ∨ s.dec.fsm = .controlByte) ∧
       u = setFsm (nextFsm s.dec.fsm b) (syncControl (controlFlags b) s))) := by
  cases hfsm : s.dec.fsm with
  | idle => exact ⟨_, feedByte_of_exec_pbyte ((idleAndFfSteps b s).1 hfsm), .inl rfl⟩
  | ff => exact ⟨_, feedByte_of_exec_pbyte ((idleAndFfSteps b s).2 hfsm), .inl rfl⟩
  | ff00 =>
    obtain ⟨hmarkerOnly, halsoData, hbroken⟩ := ff00Step b s hfsm
    by_cases hb : b = 0x00#8
    · have hnext : nextFsm .ff00 b = .ff0000 := if_pos hb
      rw [hnext]
      cases hmarker : s.params.demuxMarker3 with
      | false => exact ⟨_, feedByte_of_exec_pbyte (hmarkerOnly hb hmarker), .inr (.inl rfl)⟩
      | true => exact ⟨_, feedByte_of_exec_pbyte (halsoData hb hmarker), .inl rfl⟩
    · have hnext : nextFsm .ff00 b = .idle := if_neg hb
      rw [hnext]
      exact ⟨_, feedByte_of_exec_pbyte (hbroken hb), .inl rfl⟩
  | ff0000 =>
    refine ⟨_, feedByte_of_exec_pbyte (controlByteStep b s hfsm), .inr (.inr ⟨.inl rfl, ?_⟩)⟩
    exact armXy_eq_armXyLate _ s
  | controlByte =>
    exact ⟨_, feedByte_of_exec_pbyte (exec_pbyte_of_fsm hfsm b), .inr (.inr ⟨.inr rfl, rfl⟩)⟩
  | undef5 | undef6 | undef7 => exact ⟨_, feedByte_of_exec_pbyte (exec_pbyte_of_fsm hfsm b), .inl rfl⟩

/-- The demultiplexer leaves the detector alone. -/
theorem offerData_fsm (b : Byte) (s : State) : (offerData b s).dec.fsm = s.dec.fsm := by
  unfold offerData demux
  split
  · split <;> rfl
  · rfl

@[simp] theorem feedByte_fsm (b : Byte) (s : State) : (feedByte b s).dec.fsm = nextFsm s.dec.fsm b := by
  obtain ⟨u, hu, hdata | hmarker | ⟨-, hcontrol⟩⟩ := feedByte_cases b s
  · rw [hu, applyErrorPolicy_dec, hdata, offerData_fsm]; rfl
  · rw [hu, applyErrorPolicy_dec, hmarker]; rfl
  · rw [hu, applyErrorPolicy_dec, hcontrol]; rfl

/-! ### Runs of bytes (20_memory.md R79) -/

@[simp] theorem feedBytes_nil (s : State) : feedBytes [] s = s := rfl

@[simp] theorem feedBytes_cons (b : Byte) (bs : List Byte) (s : State) :
    feedBytes (b :: bs) s = feedBytes bs (feedByte b s) := rfl

theorem feedBytes_append (as bs : List Byte) (s : State) :
    feedBytes (as ++ bs) s = feedBytes bs (feedBytes as s) := by
  induction as generalizing s with
  | nil => rfl
  | cons a as ih => exact ih (feedByte a s)

theorem feedBytes_fsm (bs : List Byte) (s : State) : (feedBytes bs s).dec.fsm = bs.foldl nextFsm s.dec.fsm := by
  induction bs generalizing s with
  | nil => rfl
  | cons b bs ih => rw [feedBytes_cons, ih, feedByte_fsm, List.foldl_cons]

/-- From IDLE a second FF is no marker byte, so a run of FF alternates between FF and IDLE (R142). -/
theorem foldl_nextFsm_replicate_ff (k : Nat) :
    (List.replicate k 0xFF#8).foldl nextFsm .idle = if k % 2 = 1 then .ff else .idle := by
  induction k with
  | zero => rfl
  | succ k ih =>
    rw [List.replicate_succ', List.foldl_append, ih]
    obtain hk | hk := Nat.mod_two_eq_zero_or_one k
    · rw [if_neg (by omega), if_pos (by omega)]; rfl
    · rw [if_pos hk, if_neg (by omega)]; rfl

/-- Settles O16: from FF the bytes 00 00 end a marker, from IDLE they leave the detector there. -/
theorem markerDetectionFollowsTheRunLength : Obligations.MarkerDetectionFollowsTheRunLength := by
  intro s hidle
  simp only [feedBytes_fsm, hidle]
  refine ⟨fun k => ?_, rfl, fun _ => rfl⟩
  rw [List.foldl_append, foldl_nextFsm_replicate_ff]
  split <;> rfl

/-! ### What the state says of the bytes before it (R148) -/

theorem nextFsm_eq_ff_iff {f : Fsm} {b : Byte} : nextFsm f b = .ff ↔ f = .idle ∧ b = 0xFF#8 := by
  cases f <;> simp [nextFsm, ite_eq_iff]

theorem nextFsm_eq_ff00_iff {f : Fsm} {b : Byte} : nextFsm f b = .ff00 ↔ f = .ff ∧ b = 0x00#8 := by
  cases f <;> simp [nextFsm, ite_eq_iff]

theorem nextFsm_eq_ff0000_iff {f : Fsm} {b : Byte} : nextFsm f b = .ff0000 ↔ f = .ff00 ∧ b = 0x00#8 := by
  cases f <;> simp [nextFsm, ite_eq_iff]

/-- A detector that has left IDLE was brought to its state by a last byte. -/
theorem exists_last_of_feedBytes_fsm {bs : List Byte} {s : State} {f : Fsm} (hidle : s.dec.fsm = .idle)
    (hf : f ≠ .idle) (h : (feedBytes bs s).dec.fsm = f) :
    ∃ pre b, bs = pre ++ [b] ∧ nextFsm (feedBytes pre s).dec.fsm b = f := by
  obtain rfl | ⟨pre, b, rfl⟩ := List.eq_nil_or_concat bs
  · exact absurd (h.symm.trans hidle) hf
  · rw [List.concat_eq_append, feedBytes_append] at h
    exact ⟨pre, b, List.concat_eq_append, (feedByte_fsm b _).symm.trans h⟩

/-- Settles O17: the last byte before FF0000 is 00 in FF00, the one before it 00 in FF, and the first is FF in IDLE. -/
theorem controlByteNeedsAMarkerFromIdle : Obligations.ControlByteNeedsAMarkerFromIdle := by
  intro bs s hidle
  constructor
  · intro h
    obtain ⟨upTo2, b₃, rfl, h₃⟩ := exists_last_of_feedBytes_fsm hidle (by decide) h
    obtain ⟨hff00, rfl⟩ := nextFsm_eq_ff0000_iff.1 h₃
    obtain ⟨upTo1, b₂, rfl, h₂⟩ := exists_last_of_feedBytes_fsm hidle (by decide) hff00
    obtain ⟨hff, rfl⟩ := nextFsm_eq_ff00_iff.1 h₂
    obtain ⟨pre, b₁, rfl, h₁⟩ := exists_last_of_feedBytes_fsm hidle (by decide) hff
    obtain ⟨hpre, rfl⟩ := nextFsm_eq_ff_iff.1 h₁
    exact ⟨pre, by simp [marker], hpre⟩
  · rintro ⟨pre, rfl, h⟩
    rw [feedBytes_append, feedBytes_fsm, h]
    rfl

/-! ### What a run without a marker keeps (95 E2) -/

/-- From `s` to `t` no control byte has been parsed: the sync state and the frame and line counts are kept, and the
events are those of samples. -/
structure SyncKept (s t : State) : Prop where
  lastFlags : t.dec.lastFlags = s.dec.lastFlags
  active : t.dec.active = s.dec.active
  frameStarted : t.dec.frameStarted = s.dec.frameStarted
  lineStarted : t.dec.lineStarted = s.dec.lineStarted
  lineCount : t.dec.lineCount = s.dec.lineCount
  frames : t.dstat.framesReceived = s.dstat.framesReceived
  lines : t.dstat.linesReceived = s.dstat.linesReceived
  trace : ∃ es : List Event, t.trace = s.trace ++ es ∧ ∀ e ∈ es, e ≠ .frame ∧ ∀ n, e ≠ .line n

theorem SyncKept.trans {s t u : State} (h : SyncKept s t) (k : SyncKept t u) : SyncKept s u where
  lastFlags := k.lastFlags.trans h.lastFlags
  active := k.active.trans h.active
  frameStarted := k.frameStarted.trans h.frameStarted
  lineStarted := k.lineStarted.trans h.lineStarted
  lineCount := k.lineCount.trans h.lineCount
  frames := k.frames.trans h.frames
  lines := k.lines.trans h.lines
  trace := by
    obtain ⟨es, hes, hsamples⟩ := h.trace
    obtain ⟨es', hes', hsamples'⟩ := k.trace
    exact ⟨es ++ es', by rw [hes', hes, List.append_assoc],
      fun e he => (List.mem_append.1 he).elim (hsamples e) (hsamples' e)⟩

/-- The detector's state, the sample held, its phase and count, the error counters and the free values are no sync
state. -/
theorem syncKept_core (s : State) (f : Fsm) (ph : Phase) (y cb cr : Byte) (xpos pixels timing sync data draws : Nat) :
    SyncKept s
      { s with
        dec := { s.dec with fsm := f, phase := ph, curY := y, curCb := cb, curCr := cr, pixelCount := xpos }
        dstat :=
          { s.dstat with
            pixelsReceived := pixels, timingErrors := timing, syncErrors := sync, dataErrors := data }
        draws := draws } :=
  ⟨rfl, rfl, rfl, rfl, rfl, rfl, rfl, [], (List.append_nil _).symm, by simp⟩

theorem SyncKept.refl (s : State) : SyncKept s s := syncKept_core ..

theorem syncKept_emit (on : Bool) {e : Event} (he : e ≠ .frame ∧ ∀ n, e ≠ .line n) (s : State) :
    SyncKept s (emit on e s) :=
  ⟨rfl, rfl, rfl, rfl, rfl, rfl, rfl, _, rfl, by
    cases on with
    | false => simp
    | true => simpa using he⟩

theorem syncKept_dispatchSample (s : State) : SyncKept s (dispatchSample s) :=
  (syncKept_emit _ (e := pixelEvent s.dec) (by simp [pixelEvent]) s).trans
    (syncKept_emit _ (e := rgbEvent s.dec) (by simp [rgbEvent]) _)

theorem syncKept_demux (b : Byte) (s : State) : SyncKept s (demux b s) := by
  unfold demux
  split
  case h_4 =>
    have hstore : SyncKept s (storeCr b s) := syncKept_core ..
    exact (hstore.trans (syncKept_dispatchSample _)).trans (syncKept_core ..)
  all_goals exact syncKept_core ..

theorem syncKept_offerData (b : Byte) (s : State) : SyncKept s (offerData b s) := by
  unfold offerData
  split
  · exact syncKept_demux b s
  · exact .refl s

theorem syncKept_applyErrorPolicy (s : State) : SyncKept s (applyErrorPolicy s) := by
  unfold applyErrorPolicy
  split
  · exact .refl s
  · exact syncKept_core ..

/-- A byte that is not the control byte changes no sync state. -/
theorem syncKept_feedByte {s : State} (hfsm : ¬ (s.dec.fsm = .ff0000 ∨ s.dec.fsm = .controlByte)) (b : Byte) :
    SyncKept s (feedByte b s) := by
  obtain ⟨u, hu, hcases⟩ := feedByte_cases b s
  rw [hu]
  refine SyncKept.trans ?_ (syncKept_applyErrorPolicy u)
  have hset : SyncKept s (setFsm (nextFsm s.dec.fsm b) s) := syncKept_core ..
  obtain rfl | rfl | ⟨hcontrol, -⟩ := hcases
  · exact hset.trans (syncKept_offerData b _)
  · exact hset
  · exact absurd hcontrol hfsm

theorem progress_feedBytes (bs : List Byte) (s : State) : Progress s (feedBytes bs s) := by
  induction bs generalizing s with
  | nil => exact .refl s
  | cons b bs ih => exact (progress_feedByte b s).trans (ih _)

/-- Between steps the detector is not in CONTROL_BYTE (10_state.md R23). -/
theorem feedBytes_fsm_ne_controlByte (bs : List Byte) {s : State} (hidle : s.dec.fsm = .idle) :
    (feedBytes bs s).dec.fsm ≠ .controlByte := by
  intro h
  have hbetween := (progress_feedBytes bs s).dec.fsm (by rw [hidle]; rfl)
  rw [h] at hbetween
  cases hbetween

/-- A marker that the bytes do not contain has not been completed. -/
theorem feedBytes_fsm_ne_ff0000 {bs : List Byte} {s : State} (hidle : s.dec.fsm = .idle)
    (hmarker : ¬ marker <:+: bs) : (feedBytes bs s).dec.fsm ≠ .ff0000 := by
  intro h
  obtain ⟨pre, hbs, -⟩ := (controlByteNeedsAMarkerFromIdle bs s hidle).1 h
  exact hmarker (hbs ▸ (List.suffix_append pre marker).isInfix)

theorem syncKept_feedBytes {bs : List Byte} {s : State} (hidle : s.dec.fsm = .idle) (hmarker : ¬ marker <:+: bs) :
    SyncKept s (feedBytes bs s) := by
  induction bs using List.reverseRecOn with
  | nil => exact .refl s
  | append_singleton bs b ih =>
    have hbs : ¬ marker <:+: bs := fun h => hmarker (h.trans (List.prefix_append bs [b]).isInfix)
    rw [feedBytes_append]
    exact (ih hbs).trans (syncKept_feedByte
      (not_or.2 ⟨feedBytes_fsm_ne_ff0000 hidle hbs, feedBytes_fsm_ne_controlByte bs hidle⟩) b)

/-- Settles O18: a byte changes the sync state only where it finds a completed marker. -/
theorem noMarkerNoDetection : Obligations.NoMarkerNoDetection := by
  intro bs s hidle hmarker t
  obtain ⟨hflags, hactive, hframe, hline, hcount, hframes, hlines, htrace⟩ := syncKept_feedBytes hidle hmarker
  exact ⟨hflags, hactive, hframe, hline, hcount, hframes, hlines, htrace⟩

/-! ### What the queue operations alone write (R140, 70 R313) -/

/-- The arm shared by the rows whose byte is also data. -/
theorem decoderOnly_offerData_setFsm (f : Fsm) (b : Byte) (s : State) : DecoderOnly s (offerData b (setFsm f s)) :=
  (decoderOnly_setFsm f s).trans (decoderOnly_offerData b _)

theorem decoderOnly_armFf00Zero (s : State) : DecoderOnly s (armFf00Zero s) := by
  unfold armFf00Zero
  split
  · exact decoderOnly_offerData_setFsm _ _ s
  · exact decoderOnly_setFsm _ s

theorem decoderOnly_armXyLate (f : SyncFlags) (s : State) : DecoderOnly s (armXyLate f s) :=
  (decoderOnly_syncControl f s).trans (decoderOnly_setFsm _ _)

theorem decoderOnly_armXy (f : SyncFlags) (s : State) : DecoderOnly s (armXy f s) :=
  armXy_eq_armXyLate f s ▸ decoderOnly_armXyLate f s

/-- The error-counter policy at the end of a PBYTE step writes no more than its arm may. -/
theorem DecoderOnly.thenErrorPolicy {s t : State} (h : DecoderOnly s t) : DecoderOnly s (applyErrorPolicy t) :=
  h.trans (decoderOnly_applyErrorPolicy t)

/-- Settles O55: the rows of a stream byte write the decoder only, and of the other rows left CSTATRST alone writes
one of the two fields. -/
theorem onlyQueueOperationsTouchTheQueue : Obligations.OnlyQueueOperationsTouchTheQueue := by
  intro i s t h ⟨hpush, hpop, hdrain, hsample⟩
  have kept {u : State} (hu : DecoderOnly s u)
      (h : (Host.Outcome.next u : Host.Outcome State Fault Refusal) = .next t) :
      t.queue = s.queue ∧ (i ≠ .cstatrst → t.cstat = s.cstat) := by
    cases h
    exact ⟨hu.queue, fun _ => hu.cstat⟩
  cases i with
  | push b => exact absurd rfl (hpush b)
  | pop => exact absurd rfl hpop
  | drain n => exact absurd rfl (hdrain n)
  | sample b => exact absurd rfl (hsample b)
  | cstatrst => cases h; exact ⟨rfl, fun hi => absurd rfl hi⟩
  | reset | setobs _ _ | rdstat _ | avail | dstatrst | ycc2rgb _ _ _ | rgb2565 _ _ _ | ycc2gray _ _ _
  | unassignedE | unassignedF | dataDiscard _ | dataY1 _ | dataCb _ | dataY2 _ | dataCr _ =>
    cases h; exact ⟨rfl, fun _ => rfl⟩
  | pbyte b => exact kept (decoderOnly_feedByte b s) h
  | idleFf | idleAny _ | ffZero | ffAny _ | ff00Any _ | undefAny _ =>
    exact kept (decoderOnly_offerData_setFsm _ _ s).thenErrorPolicy h
  | ff00Zero => exact kept (decoderOnly_armFf00Zero s).thenErrorPolicy h
  | xy f => exact kept (decoderOnly_armXy f s).thenErrorPolicy h
  | xyLate f => exact kept (decoderOnly_armXyLate f s).thenErrorPolicy h

end Sys2Proof.Machine
end

section
/-! The sync flags (41_sync_flags.md): what each check of SYNC writes, and the state a control byte leaves. -/

namespace Sys2Proof.Machine

open Sys2Proof

/-! ### What each check of SYNC writes (R163, R165 to R168) -/

theorem vsyncCheck_eq (f : SyncFlags) (s : State) :
    let v := rise f.vsync s.dec.lastFlags.vsync
    vsyncCheck f s =
      { s with
        dec := { s.dec with
          frameStarted := s.dec.frameStarted || v
          lineCount := if v then 0 else s.dec.lineCount
          pixelCount := if v then 0 else s.dec.pixelCount }
        dstat := { s.dstat with
          framesReceived := if v then inc s.params.statw s.dstat.framesReceived else s.dstat.framesReceived
          lastFrameTime := if v then readNow s else s.dstat.lastFrameTime }
        trace := s.trace ++ (if v && s.dec.obs.frame then [.frame] else [])
        draws := if v then s.draws + 1 else s.draws } := by
  rw [vsyncCheck]
  cases rise f.vsync s.dec.lastFlags.vsync with
  | false => simp
  | true => simp [vsyncRise, emit, drawn]

theorem hsyncCheck_eq (f : SyncFlags) (s : State) :
    let h := rise f.hsync s.dec.lastFlags.hsync
    hsyncCheck f s =
      { s with
        dec := { s.dec with
          lineStarted := s.dec.lineStarted || h
          lineCount := if h then inc s.params.xyw s.dec.lineCount else s.dec.lineCount
          pixelCount := if h then 0 else s.dec.pixelCount }
        dstat := { s.dstat with
          linesReceived := if h then inc s.params.statw s.dstat.linesReceived else s.dstat.linesReceived }
        trace := s.trace ++ (if h && s.dec.obs.line then [.line s.dec.lineCount] else []) } := by
  rw [hsyncCheck]
  cases rise f.hsync s.dec.lastFlags.hsync with
  | false => simp
  | true => simp [hsyncRise, emit, bumpLine]

theorem savCheck_eq (f : SyncFlags) (s : State) :
    savCheck f s =
      { s with
        dec := { s.dec with
          active := f.sav
          phase := if f.sav then .y1 else s.dec.phase
          pixelCount := if f.sav then 0 else s.dec.pixelCount } } := by
  rw [savCheck]
  cases f.sav with
  | false => rfl
  | true => rfl

/-- The pixel counter is cleared if one of the three checks, run in turn, clears it. -/
theorem pixelCount_after_checks (v h sav : Bool) (n : Nat) :
    (if v || h || sav then 0 else n) = if sav then 0 else if h then 0 else if v then 0 else n := by
  rw [Bool.or_comm, Bool.or_comm v h]
  simp only [Bool.or_eq_true, ite_or]

/-! ### The control byte (R160, R169) -/

/-- Passing through CONTROL_BYTE leaves no mark on the state after XY. -/
theorem exec_xy_eq (f : SyncFlags) (s : State) :
    exec (.xy f) s = .next (applyErrorPolicy (setFsm .idle (syncControl f s))) :=
  (exec_xyLate_eq_exec_xy f s).symm

/-- Settles O19: the effects of the three checks are composed in SYNC's order, so the line event carries the number
the vsync check leaves, and the checks clear the pixel counter together. -/
theorem controlByteEffect : Obligations.ControlByteEffect := by
  intro f s v h line0 t
  have hxy : exec (.xy f) s = .next t := by
    rw [exec_xy_eq, syncControl, vsyncCheck_eq, hsyncCheck_eq, savCheck_eq]
    simp only [t, pixelCount_after_checks]
    rfl
  exact ⟨hxy, (exec_xyLate_eq_exec_xy f s).trans hxy⟩

end Sys2Proof.Machine
end

section
/-! The pixel demultiplexer (42_pixel_demux.md): what each phase writes, the bytes outside the active region, the step
of a byte that is data, and the sample groups of a line. -/

namespace Sys2Proof.Machine

open Sys2Proof

/-! ### What the detector and the error-counter policy leave of the decoder (40 R140) -/

@[simp] theorem setFsm_dec (f : Fsm) (s : State) : (setFsm f s).dec = { s.dec with fsm := f } := rfl

@[simp] theorem applyErrorPolicy_pixelsReceived (s : State) :
    (applyErrorPolicy s).dstat.pixelsReceived = s.dstat.pixelsReceived := by
  unfold applyErrorPolicy; split <;> rfl

/-! ### The phases (R182 to R185) -/

/-- Settles O21: each of the three rows is its phase of the demultiplexer. -/
theorem dataPhasesY1CbY2 : Obligations.DataPhasesY1CbY2 := fun _ _ => ⟨rfl, rfl, rfl⟩

/-- Settles O22: the sample is dispatched after its last byte is stored and before the counters are incremented. -/
theorem crPhaseDispatchesTheSample : Obligations.CrPhaseDispatchesTheSample := fun _ _ => rfl

/-! ### Bytes outside the active region (R189) -/

theorem offerData_of_inactive {s : State} (hactive : s.dec.active = false) (b : Byte) : offerData b s = s := by
  simp [offerData, discardByte, hactive]

/-- Outside the active region a byte that is not the control byte moves the detector and nothing else. -/
theorem exec_pbyte_of_inactive {s : State} (hactive : s.dec.active = false)
    (hfsm : ¬ (s.dec.fsm = .ff0000 ∨ s.dec.fsm = .controlByte)) (b : Byte) :
    exec (.pbyte b) s = .next (applyErrorPolicy (setFsm (nextFsm s.dec.fsm b) s)) := by
  refine congrArg Host.Outcome.next ?_
  obtain ⟨u, hu, hdata | hmarker | ⟨hcontrol, -⟩⟩ := feedByte_cases b s
  · rw [hu, hdata, offerData_of_inactive (by simpa using hactive)]
  · rw [hu, hmarker]
  · exact absurd hcontrol hfsm

/-- Settles O23: a byte moves the detector alone, and the frozen policy keeps the error counters. -/
theorem bytesOutsideTheRegionAreDiscarded : Obligations.BytesOutsideTheRegionAreDiscarded := by
  refine ⟨fun _ _ => rfl, ?_, fun s hfrozen => by simp [applyErrorPolicy, hfrozen]⟩
  intro b s hactive movesTo
  have moves_of {f : Fsm} (hfsm : s.dec.fsm = f) (hf : ¬ (f = .ff0000 ∨ f = .controlByte)) :
      movesTo (nextFsm f b) := by
    subst hfsm
    exact exec_pbyte_of_inactive hactive hf b
  refine ⟨fun h => moves_of h (by decide), fun h => moves_of h (by decide), fun h => moves_of h (by decide), ?_⟩
  rintro (h | h | h) <;> exact moves_of h (by decide)

/-! ### The step of a byte that is data (40 R140, R147) -/

/-- The PBYTE step of a byte that is data, whatever `DEMUX_MARKER3` says. -/
def dataStep (s : State) (b : Byte) : State :=
  applyErrorPolicy (offerData b (setFsm (nextFsm s.dec.fsm b) s))

/-- A byte that neither completes a marker nor follows one is data. -/
theorem feedByte_eq_dataStep {s : State} {b : Byte} (hcontrol : ¬ (s.dec.fsm = .ff0000 ∨ s.dec.fsm = .controlByte))
    (hnext : nextFsm s.dec.fsm b ≠ .ff0000) : feedByte b s = dataStep s b := by
  rw [dataStep]
  apply feedByte_of_exec_pbyte
  cases hfsm : s.dec.fsm with
  | idle => exact (idleAndFfSteps b s).1 hfsm
  | ff => exact (idleAndFfSteps b s).2 hfsm
  | ff00 =>
    have hb : b ≠ 0x00#8 := fun hb => hnext (nextFsm_eq_ff0000_iff.2 ⟨hfsm, hb⟩)
    rw [show nextFsm .ff00 b = .idle from if_neg hb]
    exact (ff00Step b s hfsm).2.2 hb
  | ff0000 => exact absurd (.inl hfsm) hcontrol
  | controlByte => exact absurd (.inr hfsm) hcontrol
  | undef5 | undef6 | undef7 => exact exec_pbyte_of_fsm hfsm b

/-- Every byte of a run without a marker is data. -/
theorem feedBytes_eq_foldl_dataStep {bs : List Byte} {s : State} (hidle : s.dec.fsm = .idle)
    (hmarker : ¬ marker <:+: bs) : feedBytes bs s = bs.foldl dataStep s := by
  induction bs using List.reverseRecOn with
  | nil => rfl
  | append_singleton bs b ih =>
    have hbs : ¬ marker <:+: bs := fun h => hmarker (h.trans (List.prefix_append bs [b]).isInfix)
    have hnext := feedBytes_fsm_ne_ff0000 hidle hmarker
    rw [feedBytes_append, feedBytes_cons, feedBytes_nil] at hnext ⊢
    rw [feedByte_fsm] at hnext
    rw [feedByte_eq_dataStep
      (not_or.2 ⟨feedBytes_fsm_ne_ff0000 hidle hbs, feedBytes_fsm_ne_controlByte bs hidle⟩) hnext,
      ih hbs, List.foldl_append, List.foldl_cons, List.foldl_nil]

/-- In the active region a data byte is handled by the DATA row of the phase. -/
theorem dataStep_of_row {s t : State} {b : Byte} (ph : Phase) (hactive : s.dec.active = true)
    (hphase : s.dec.phase = ph) (hrow : exec (decodeData true ph b) (setFsm (nextFsm s.dec.fsm b) s) = .next t) :
    dataStep s b = applyErrorPolicy t := by
  have hoffer := exec_decodeData b (setFsm (nextFsm s.dec.fsm b) s)
  rw [setFsm_dec, hactive, hphase, hrow] at hoffer
  exact congrArg applyErrorPolicy (Host.Outcome.next.inj hoffer).symm

/-! ### One sample group (R186) -/

/-- From `s` to `t` bytes have been stored, so that the decoder is `d`, and no sample is complete. -/
structure Stored (s : State) (d : Decoder) (t : State) : Prop where
  params : t.params = s.params
  dec : t.dec = d
  trace : t.trace = s.trace
  pixels : t.dstat.pixelsReceived = s.dstat.pixelsReceived

/-- One more byte is stored by a DATA row that writes the decoder alone. -/
theorem Stored.byte {s t : State} {d : Decoder} {b : Byte} (h : Stored s d t) (ph : Phase)
    (store : Decoder → Decoder) (hactive : d.active = true) (hphase : d.phase = ph)
    (hrow : ∀ u, exec (decodeData true ph b) u = .next { u with dec := store u.dec }) :
    Stored s (store { d with fsm := nextFsm d.fsm b }) (dataStep t b) := by
  obtain ⟨hparams, rfl, htrace, hpixels⟩ := h
  rw [dataStep_of_row ph hactive hphase (hrow _)]
  constructor
  case params => rw [applyErrorPolicy_params, setFsm_params, hparams]
  case dec => rw [applyErrorPolicy_dec, setFsm_dec]
  case trace => rw [applyErrorPolicy_trace, setFsm_trace, htrace]
  case pixels => rw [applyErrorPolicy_pixelsReceived, setFsm_dstat, hpixels]

/-- The decoder with the sample of the group `g` held: its second luma byte and its two chroma bytes. -/
def Decoder.holding (g : Group) (d : Decoder) : Decoder := { d with curY := g.y2, curCb := g.cb, curCr := g.cr }

/-- From `s` to `t` one sample group `g` has been received, from phase Y1 to phase Y1. -/
structure GroupTaken (g : Group) (s t : State) : Prop where
  params : t.params = s.params
  dec : t.dec = { s.dec.holding g with
    fsm := g.bytes.foldl nextFsm s.dec.fsm, phase := .y1, pixelCount := inc s.params.xyw s.dec.pixelCount }
  trace : t.trace = s.trace ++ (if s.dec.obs.pixel then [pixelEvent (s.dec.holding g)] else []) ++
    (if s.dec.obs.rgb then [rgbEvent (s.dec.holding g)] else [])
  pixels : t.dstat.pixelsReceived = inc s.params.statw s.dstat.pixelsReceived

/-- In the active region four bytes that are all data pass through the four phases. -/
theorem groupTaken_feedBytes {g : Group} {s : State} (hidle : s.dec.fsm = .idle) (hactive : s.dec.active = true)
    (hphase : s.dec.phase = .y1) (hmarker : ¬ marker <:+: g.bytes) : GroupTaken g s (feedBytes g.bytes s) := by
  have hstart : Stored s s.dec s := ⟨rfl, rfl, rfl, rfl⟩
  have hy1 := hstart.byte .y1 (fun d => { d with curY := g.y1, phase := .cb }) hactive hphase
    fun u => (dataPhasesY1CbY2 g.y1 u).1
  have hcb := hy1.byte .cb (fun d => { d with curCb := g.cb, phase := .y2 }) hactive rfl
    fun u => (dataPhasesY1CbY2 g.cb u).2.1
  have hy2 := hcb.byte .y2 (fun d => { d with curY := g.y2, phase := .cr }) hactive rfl
    fun u => (dataPhasesY1CbY2 g.y2 u).2.2
  have hrun : feedBytes g.bytes s = dataStep (dataStep (dataStep (dataStep s g.y1) g.cb) g.y2) g.cr :=
    feedBytes_eq_foldl_dataStep hidle hmarker
  rw [hrun, dataStep_of_row .cr (by rw [hy2.dec]; exact hactive) (by rw [hy2.dec])
    (crPhaseDispatchesTheSample g.cr _)]
  obtain ⟨hparams, hdec, htrace, hpixels⟩ := hy2
  constructor
  case params => rw [applyErrorPolicy_params, setFsm_params, hparams]
  case dec => rw [applyErrorPolicy_dec, setFsm_dec, setFsm_params, hparams, hdec]; rfl
  case trace => rw [applyErrorPolicy_trace, setFsm_trace, setFsm_dec, htrace, hdec]; rfl
  case pixels => rw [applyErrorPolicy_pixelsReceived, setFsm_dstat, setFsm_params, hparams, hpixels]

/-- A control byte with sav set opens the active region at phase Y1 and pixel 0 (41 R167). -/
theorem feedByte_sav_opens_region {c : Byte} {s : State} (hfsm : s.dec.fsm = .ff0000) (hsav : c.getLsbD 3 = true) :
    let u := feedByte c s
    u.params = s.params ∧ u.dec.fsm = .idle ∧ u.dec.active = true ∧ u.dec.phase = .y1 ∧ u.dec.pixelCount = 0 ∧
    u.dec.obs = s.dec.obs ∧ u.dstat.pixelsReceived = s.dstat.pixelsReceived := by
  have hflag : (controlFlags c).sav = true := hsav
  have hcontrol := (controlByteEffect (controlFlags c) s).1
  rw [← exec_pbyte_eq_exec_xy (.inl hfsm)] at hcontrol
  simp [feedByte_of_exec_pbyte hcontrol, hflag]

/-- Settles O25: the control byte opens the region at phase Y1 and pixel 0, and the four bytes are a group there. -/
theorem oneSamplePerGroupAfterSav : Obligations.OneSamplePerGroupAfterSav := by
  intro c y1 cb y2 cr s hfsm hsav hmarker u t rgb
  obtain ⟨hparams, hidle, hactive, hphase, hcount, hobs, hpixels⟩ := feedByte_sav_opens_region hfsm hsav
  have htaken : GroupTaken ⟨y1, cb, y2, cr⟩ u t := groupTaken_feedBytes hidle hactive hphase hmarker
  refine ⟨?_, ?_, ?_, ?_, ?_⟩
  · rw [htaken.trace, hobs, pixelEvent, rgbEvent]
    simp only [Decoder.holding, u, hcount, rgb]
  · rw [htaken.pixels, hparams, hpixels]
  · rw [htaken.dec, hparams, hcount]
  · rw [htaken.dec]
  · rw [htaken.dec]
    exact hactive

/-! ### The groups of a line (R186) -/

/-- Without a byte FF the detector stays in IDLE. -/
theorem foldl_nextFsm_of_no_ff {bs : List Byte} (hff : ∀ b ∈ bs, b ≠ 0xFF#8) : bs.foldl nextFsm .idle = .idle := by
  induction bs with
  | nil => rfl
  | cons b bs ih =>
    rw [List.foldl_cons, nextFsm, if_neg (hff b List.mem_cons_self)]
    exact ih fun c hc => hff c (List.mem_cons_of_mem b hc)

theorem not_marker_of_no_ff {bs : List Byte} (hff : ∀ b ∈ bs, b ≠ 0xFF#8) : ¬ marker <:+: bs :=
  fun h => hff 0xFF#8 (h.subset List.mem_cons_self) rfl

/-- Settles O26, by induction on the groups: each leaves the detector in IDLE, the phase at Y1 and the count one
higher, which its width still holds. -/
theorem groupsAreNumberedFromThePixelCount : Obligations.GroupsAreNumberedFromThePixelCount := by
  intro gs
  induction gs with
  | nil => exact fun s hidle _ hphase _ _ _ _ => ⟨(List.append_nil _).symm, rfl, hphase, hidle⟩
  | cons g gs ih =>
    intro s hidle hactive hphase hpixel hrgb hff hfits
    obtain ⟨hg, hgs⟩ := List.forall_mem_cons.1 hff
    have htaken := groupTaken_feedBytes hidle hactive hphase (not_marker_of_no_ff hg)
    have hinc : inc s.params.xyw s.dec.pixelCount = s.dec.pixelCount + 1 :=
      inc_of_succ_fits hfits (Nat.le_add_right _ _)
    have hsum : s.dec.pixelCount + 1 + gs.length = s.dec.pixelCount + (g :: gs).length := by
      rw [List.length_cons]; omega
    obtain ⟨hparams, hdec, htrace, -⟩ := htaken
    rw [hidle, foldl_nextFsm_of_no_ff hg, hinc] at hdec
    obtain ⟨htail, hcount, hend⟩ := ih (feedBytes g.bytes s) (by rw [hdec]) (by rw [hdec]; exact hactive)
      (by rw [hdec]) (by rw [hdec]; exact hpixel) (by rw [hdec]; exact hrgb) hgs
      (by rw [hparams, hdec, hsum]; exact hfits)
    rw [List.flatMap_cons, feedBytes_append]
    refine ⟨?_, ?_, hend⟩
    · rw [htail, htrace, hdec, hpixel, hrgb, List.mapIdx_cons]
      simp [pixelEvent, Decoder.holding, Nat.add_assoc, Nat.add_comm 1]
    · rw [hcount, hdec, ← hsum]

end Sys2Proof.Machine
end

section
/-! The color converter (43_color_converter.md): the number a concatenation, a clamp or a field of a word stands for,
and the three functions on the `result` port. -/

namespace Sys2Proof

/-- `{a, b}` as a number, where the word has room for both. -/
theorem toNat_cat {k m n : Nat} (a : BitVec m) (b : BitVec n) (hk : n + m ≤ k) :
    (cat k a b).toNat = a.toNat * 2 ^ n + b.toNat := by
  have hroom : a.toNat <<< n < 2 ^ k := by
    calc a.toNat <<< n = a.toNat * 2 ^ n := Nat.shiftLeft_eq _ _
      _ < 2 ^ m * 2 ^ n := Nat.mul_lt_mul_of_pos_right a.isLt (Nat.two_pow_pos n)
      _ = 2 ^ (n + m) := by rw [Nat.mul_comm, Nat.pow_add]
      _ ≤ 2 ^ k := Nat.pow_le_pow_right Nat.two_pos hk
  rw [cat, BitVec.toNat_or, BitVec.toNat_shiftLeft, BitVec.toNat_setWidth_of_le (by omega),
    BitVec.toNat_setWidth_of_le (by omega), Nat.mod_eq_of_lt hroom, ← Nat.shiftLeft_add_eq_or_of_lt b.isLt,
    Nat.shiftLeft_eq]

/-- The top bits of a word are the word shifted right. -/
theorem toNat_extractLsb'_top {w i len : Nat} (x : BitVec w) (hw : w ≤ i + len) :
    (x.extractLsb' i len).toNat = x.toNat >>> i := by
  have hlt : x.toNat < 2 ^ i * 2 ^ len :=
    calc x.toNat < 2 ^ w := x.isLt
      _ ≤ 2 ^ (i + len) := Nat.pow_le_pow_right Nat.two_pos hw
      _ = 2 ^ i * 2 ^ len := Nat.pow_add _ _ _
  rw [BitVec.extractLsb'_toNat, Nat.shiftRight_eq_div_pow, Nat.mod_eq_of_lt (Nat.div_lt_of_lt_mul hlt)]

namespace Machine

theorem toNat_clamp255 (n : Int) : (clamp255 n).toNat = (max 0 (min 255 n)).toNat := by
  unfold clamp255
  split
  next hneg => rw [max_eq_left (by omega)]; rfl
  next hnonneg =>
    split
    next hbig => rw [min_eq_left (by omega)]; rfl
    next hsmall =>
      rw [BitVec.toNat_ofNat, Nat.mod_eq_of_lt (by omega), min_eq_right (by omega), max_eq_right (by omega)]

theorem clamp255_of_nonpos {n : Int} (hn : n ≤ 0) : clamp255 n = 0#8 := by
  apply BitVec.eq_of_toNat_eq
  rw [toNat_clamp255, min_eq_right (by omega), max_eq_left hn]
  rfl

theorem toNat_rgbWord (c : RgbSample) :
    (rgbWord c).toNat = c.r.toNat * 65536 + c.g.toNat * 256 + c.b.toNat := by
  rw [rgbWord, toNat_cat _ _ (by decide), toNat_cat _ _ (by decide)]
  exact (Nat.add_assoc _ _ _).symm

theorem toNat_rgb565 (r g b : Byte) :
    (rgb565 r g b).toNat = (r.toNat >>> 3) * 2048 + (g.toNat >>> 2) * 32 + (b.toNat >>> 3) := by
  rw [rgb565, toNat_cat _ _ (by decide), toNat_cat _ _ (by decide), toNat_extractLsb'_top r (by decide),
    toNat_extractLsb'_top g (by decide), toNat_extractLsb'_top b (by decide)]
  exact (Nat.add_assoc _ _ _).symm

theorem exec_ycc2rgb (y cb cr : Byte) (s : State) :
    exec (.ycc2rgb y cb cr) s = .next (giveResult (toPort (rgbWord (ycc2rgb y cb cr))) s) := rfl

theorem exec_rgb2565 (r g b : Byte) (s : State) :
    exec (.rgb2565 r g b) s = .next (giveResult (toPort (rgb565 r g b)) s) := rfl

/-- Settles O33: the word on the port is the number its three channels make up, and each channel is a clamped
quotient. -/
theorem ycc2rgbIsTheExactTransform : Obligations.Ycc2rgbIsTheExactTransform := by
  intro y cb cr s yp cbp crp ch
  have hch (n : Int) : (channel n).toNat = ch n := toNat_clamp255 (n.tdiv 1000)
  rw [exec_ycc2rgb, toPort, toNat_rgbWord, ycc2rgb, hch, hch, hch]
  rfl

/-- Settles O34: the two quotients are equal for a sum that is not negative, and otherwise neither is positive, so
both clamp to 0. -/
theorem truncationEqualsFloorAfterTheClamp : Obligations.TruncationEqualsFloorAfterTheClamp := by
  intro n
  rw [channel]
  obtain hn | hn := le_or_gt 0 n
  · rw [Int.tdiv_eq_ediv_of_nonneg hn]
  · have htrunc : n.tdiv 1000 ≤ 0 := by
      have hneg : 0 ≤ (-n).tdiv 1000 := Int.tdiv_nonneg (by omega) (by decide)
      rw [Int.neg_tdiv] at hneg
      omega
    have hfloor : n / 1000 ≤ 0 := by omega
    rw [clamp255_of_nonpos htrunc, clamp255_of_nonpos hfloor]

/-- Settles O35: the word on the port is the number its three fields make up, and each field is the top of its
channel. -/
theorem rgb2565KeepsTheTopBits : Obligations.Rgb2565KeepsTheTopBits := by
  intro r g b s
  rw [exec_rgb2565, toPort, toNat_rgb565]
  rfl

/-- Settles O36: the gray value is the luma itself, and it is all that is given. -/
theorem ycc2grayIsTheLuma : Obligations.Ycc2grayIsTheLuma := fun _ _ _ _ => rfl

end Machine
end Sys2Proof
end

section
/-! The capture stage (44_capture_queue.md): the steps of an agent, and what PUSH, POP, AVAIL, buffered SAMPLE and each
step of a DRAIN do. -/

namespace Sys2Proof.Machine

open Sys2Proof

/-! ### The agent's own buffer (R228, 20_memory.md R83) -/

/-- What is fetched, carried out. -/
def Fetched.run : Fetched → Host.Outcome State Fault Refusal
  | .instr i s => exec i s
  | .done o => o

theorem step_eq_run (s : State) : step s = (fetch s).run := by
  unfold step
  cases fetch s <;> rfl

/-- The state in which the agent `a`, in turn, starts a request: `rs` are its requests after it, `turns` the turns. -/
def started (a : Agent) (rs : List Request) (turns : List Agent) (s : State) : State :=
  setCtx a { ctxOf s a with requests := rs } { s with turns := turns, running := a }

@[simp] theorem started_params (a : Agent) (rs : List Request) (turns : List Agent) (s : State) :
    (started a rs turns s).params = s.params := by simp [started]
@[simp] theorem started_queue (a : Agent) (rs : List Request) (turns : List Agent) (s : State) :
    (started a rs turns s).queue = s.queue := by simp [started]
@[simp] theorem started_results (a : Agent) (rs : List Request) (turns : List Agent) (s : State) :
    (started a rs turns s).results = s.results := by simp [started]
@[simp] theorem started_turns (a : Agent) (rs : List Request) (turns : List Agent) (s : State) :
    (started a rs turns s).turns = turns := by simp [started]
@[simp] theorem started_running (a : Agent) (rs : List Request) (turns : List Agent) (s : State) :
    (started a rs turns s).running = a := by simp [started]
@[simp] theorem ctxOf_started_same (a : Agent) (rs : List Request) (turns : List Agent) (s : State) :
    ctxOf (started a rs turns s) a = { ctxOf s a with requests := rs } := by simp [started]

/-- An agent in turn with no DRAIN in progress carries out its oldest request. -/
theorem step_of_request {s : State} {a : Agent} {turns : List Agent} {r : Request} {rs : List Request}
    (hturn : s.turns = a :: turns) (hdrain : (ctxOf s a).drain = none) (hreq : (ctxOf s a).requests = r :: rs) :
    step s = (startRequest r (started a rs turns s)).run := by
  rw [step_eq_run, fetch_of_request hturn hdrain hreq]
  rfl

/-- An agent in turn with a DRAIN in progress goes on with it. -/
theorem step_of_drain {s : State} {a : Agent} {turns : List Agent} {d : Drain} (hturn : s.turns = a :: turns)
    (hdrain : (ctxOf s a).drain = some d) :
    step s = outcome (drainStep d { s with turns := turns, running := a }) := by
  simp [step, fetch, agentStep, hturn, hdrain]

/-- An agent in turn with nothing to do lets its turn pass. -/
theorem step_of_idle {s : State} {a : Agent} {turns : List Agent} (hturn : s.turns = a :: turns)
    (hdrain : (ctxOf s a).drain = none) (hreq : (ctxOf s a).requests = []) :
    step s = .next { s with turns := turns, running := a } := by
  simp [step, fetch, agentStep, hturn, hdrain, hreq]

theorem startRequest_feed_of_staged {s : State} {b : Byte} {rest : List Byte}
    (hstaging : (ctxOf s s.running).staging = b :: rest) :
    startRequest .feed s = .instr (.pbyte b) (setCtx s.running { ctxOf s s.running with staging := rest } s) := by
  simp [startRequest, hstaging]

theorem startRequest_feed_of_nothing_staged {s : State} (hstaging : (ctxOf s s.running).staging = []) :
    startRequest .feed s = .done (.next s) := by
  simp [startRequest, hstaging]

/-- Settles O4: the agent in turn carries out its oldest request, if it has one. -/
theorem agentStepsOutsideTheCore : Obligations.AgentStepsOutsideTheCore := by
  refine ⟨fun s hturns => by simp [step, fetch, hturns], ?_⟩
  intro s a turns rs hturn hdrain u
  have hctx : ctxOf u a = { ctxOf s a with requests := rs } := ctxOf_started_same a rs turns s
  have hrunning : u.running = a := started_running a rs turns s
  refine ⟨fun b rest hreq hstaging => ?_, fun hreq hstaging => ?_, fun hreq => ?_, step_of_idle hturn hdrain⟩
  · have hfeed := startRequest_feed_of_staged (s := u) (by rw [hrunning, hctx, hstaging])
    rw [hrunning] at hfeed
    exact (step_of_request hturn hdrain hreq).trans (congrArg Fetched.run hfeed)
  · have hfeed := startRequest_feed_of_nothing_staged (s := u) (by rw [hrunning, hctx, hstaging])
    exact (step_of_request hturn hdrain hreq).trans (congrArg Fetched.run hfeed)
  · rw [step_of_request hturn hdrain hreq, startRequest, started_running]
    rfl

/-! ### PUSH and SAMPLE by what they find (R220, R226) -/

theorem pushStep_of_full {b : Byte} {s : State} (hf : s.queue.full = true) :
    pushStep b s = .ok (countOverflow s, false) := by
  simp [pushStep, hf]

theorem pushStep_of_room {b : Byte} {s : State} (hf : s.queue.full = false) (hwr : s.queue.wr < s.params.qcap) :
    pushStep b s = .ok ({ s with queue := Queue.pushed s.params b s.queue }, true) := by
  simp [pushStep, hf, Queue.insert, memWrite_ok hwr, Queue.pushed]

theorem execSample_of_full {b : Byte} {s : State} (hmode : s.params.mode = .buffered) (hf : s.queue.full = true) :
    execSample b s = .next (stampService (countOverflow (countInterrupt s))) :=
  execSample_buffered hmode (pushStep_of_full (s := countInterrupt s) hf)

theorem execSample_of_room {b : Byte} {s : State} (hmode : s.params.mode = .buffered) (hf : s.queue.full = false)
    (hwr : s.queue.wr < s.params.qcap) :
    execSample b s = .next (stampService (countCaptured
      { countInterrupt s with queue := Queue.pushed s.params b s.queue })) :=
  execSample_buffered hmode (pushStep_of_room (s := countInterrupt s) hf hwr)

/-- Settles O37: the two arms of PUSH. -/
theorem pushStoresOrCounts : Obligations.PushStoresOrCounts := fun _ _ =>
  ⟨execPush_of_full, execPush_of_room⟩

/-- Settles O43: the two arms of PUSH, between the count of the interrupt and the service times. -/
theorem sampleInBufferedMode : Obligations.SampleInBufferedMode := fun _ _ hmode =>
  ⟨execSample_of_full hmode, execSample_of_room hmode⟩

/-- A PUSH writes the cell at the write cursor, where there is room, and no other. -/
theorem find_pushed (p : Params) (b : Byte) (q : Queue) :
    Memory.find (Queue.pushed p b q).buf q.wr = some b ∧
    ∀ a, a ≠ q.wr → Memory.find (Queue.pushed p b q).buf a = Memory.find q.buf a :=
  ⟨find_store_same .., fun _ ha => find_store_other _ ha _⟩

/-- Settles O38: on a full queue neither instruction writes the memory, and otherwise both leave the pushed queue. -/
theorem pushWritesOnlyTheCellAtWr : Obligations.PushWritesOnlyTheCellAtWr := by
  intro b s i hi hroom
  have hqueue : ∃ t, exec i s = .next t ∧
      t.queue = if s.queue.full then s.queue else Queue.pushed s.params b s.queue := by
    cases hf : s.queue.full with
    | true =>
      obtain rfl | ⟨rfl, hmode⟩ := hi
      · exact ⟨_, execPush_of_full hf, rfl⟩
      · exact ⟨_, execSample_of_full hmode hf, rfl⟩
    | false =>
      have hwr : s.queue.wr < s.params.qcap := hroom.resolve_left (by simp [hf])
      obtain rfl | ⟨rfl, hmode⟩ := hi
      · exact ⟨_, execPush_of_room hf hwr, rfl⟩
      · exact ⟨_, execSample_of_room hmode hf hwr, rfl⟩
  obtain ⟨t, hexec, ht⟩ := hqueue
  refine ⟨t, hexec, ?_⟩
  rw [ht]
  cases s.queue.full with
  | true => simp
  | false => simpa using find_pushed s.params b s.queue

/-! ### POP and AVAIL (R221, R223) -/

theorem isEmpty_eq_false_iff {q : Queue} : Queue.isEmpty q = false ↔ ¬ (q.wr = q.rd ∧ q.full = false) :=
  Bool.eq_false_iff.trans (not_congr isEmpty_iff)

/-- Settles O39: the two arms of POP. -/
theorem popTakesTheByteAtRd : Obligations.PopTakesTheByteAtRd := fun s =>
  ⟨fun hempty => execPop_of_isEmpty (isEmpty_iff.2 hempty), fun hoccupied hrd =>
    ⟨_, execPop_of_nonempty (isEmpty_eq_false_iff.2 hoccupied) hrd, by simp [Queue.popped, advance]⟩⟩

/-- Settles O41: AVAIL answers the count, which is the capacity of a full queue. -/
theorem availCountsWithoutChangingState : Obligations.AvailCountsWithoutChangingState := by
  intro s
  have havail : exec .avail s = .next (giveResult (.available (Queue.count s.params s.queue)) s) := rfl
  rw [havail, Queue.count]
  exact ⟨fun hf => by rw [if_pos hf]; rfl, fun hf => by rw [if_neg (by simp [hf])]; rfl⟩

/-! ### One step of a DRAIN (R222, 20_memory.md R82) -/

/-- A DRAIN with no byte to come, or that finds the queue empty, ends with what it has. -/
theorem drainStep_of_done {d : Drain} {s : State} (h : d.remaining = 0 ∨ Queue.isEmpty s.queue = true) :
    drainStep d s = .ok (finishDrain d.got d.thenFeed s) := by
  unfold drainStep
  split
  next => rfl
  next left hleft =>
    have hempty : Queue.isEmpty s.queue = true := h.resolve_left (by omega)
    simp [popStep, hempty]

/-- The state once the byte at the read cursor has been taken for the DRAIN `d`. -/
def drainTaken (d : Drain) (s : State) : State :=
  stageUnless d.thenFeed (cellValue s.queue.buf s.queue.rd) { s with queue := Queue.popped s.params s.queue }

/-- The DRAIN `d` with one byte more taken and one fewer to come. -/
def Drain.took (b : Byte) (d : Drain) : Drain := { d with remaining := d.remaining - 1, got := d.got ++ [b] }

/-- The state once the byte at the read cursor has been taken for the DRAIN `d`, which stays in progress. -/
def drainGoesOn (d : Drain) (s : State) : State :=
  setDrain (some (d.took (cellValue s.queue.buf s.queue.rd))) (drainTaken d s)

/-- A DRAIN that wants one byte and finds one ends with it. -/
theorem drainStep_of_last {d : Drain} {s : State} (hlast : d.remaining = 1) (hne : Queue.isEmpty s.queue = false)
    (hrd : s.queue.rd < s.params.qcap) :
    drainStep d s = .ok
      (finishDrain (d.got ++ [cellValue s.queue.buf s.queue.rd]) d.thenFeed (drainTaken d s)) := by
  simp [drainStep, hlast, popStep_of_nonempty hne hrd, drainTaken]

/-- A DRAIN that wants more bytes and finds one goes on. -/
theorem drainStep_of_more {d : Drain} {s : State} (hmore : 2 ≤ d.remaining) (hne : Queue.isEmpty s.queue = false)
    (hrd : s.queue.rd < s.params.qcap) :
    drainStep d s = .ok (drainGoesOn d s) := by
  obtain ⟨left, hleft⟩ := Nat.exists_eq_add_of_le' hmore
  simp [drainStep, hleft, popStep_of_nonempty hne hrd, drainTaken, drainGoesOn, Drain.took]

@[simp] theorem drainTaken_params (d : Drain) (s : State) : (drainTaken d s).params = s.params := by
  simp [drainTaken]
@[simp] theorem drainTaken_turns (d : Drain) (s : State) : (drainTaken d s).turns = s.turns := by
  simp [drainTaken]
@[simp] theorem drainTaken_running (d : Drain) (s : State) : (drainTaken d s).running = s.running := by
  simp [drainTaken]
@[simp] theorem drainTaken_results (d : Drain) (s : State) : (drainTaken d s).results = s.results := by
  simp [drainTaken]
@[simp] theorem drainTaken_queue (d : Drain) (s : State) :
    (drainTaken d s).queue = Queue.popped s.params s.queue := by
  simp [drainTaken]

/-- The byte taken is staged, but for the DRAIN of a SERVICE. -/
@[simp] theorem ctxOf_drainTaken {a : Agent} {s : State} (ha : s.running = a) (d : Drain) :
    ctxOf (drainTaken d s) a =
      { ctxOf s a with
        staging := if d.thenFeed then (ctxOf s a).staging
          else (ctxOf s a).staging ++ [cellValue s.queue.buf s.queue.rd] } := by
  subst ha
  unfold drainTaken stageUnless
  split
  · simp
  · exact (ctxOf_stage_running ..).trans (by simp)

@[simp] theorem ctxOf_setDrain {a : Agent} {s : State} (ha : s.running = a) (d : Option Drain) :
    ctxOf (setDrain d s) a = { ctxOf s a with drain := d } := by
  subst ha
  exact ctxOf_setCtx_same ..

/-- An ended DRAIN is gone, and the bytes of a SERVICE are what its agent puts on `din` next. -/
@[simp] theorem ctxOf_finishDrain {a : Agent} {s : State} (ha : s.running = a) (got : List Byte) (thenFeed : Bool) :
    ctxOf (finishDrain got thenFeed s) a =
      { ctxOf s a with
        requests := if thenFeed then got.map .byte ++ (ctxOf s a).requests else (ctxOf s a).requests
        drain := none } := by
  unfold finishDrain
  split <;> simp [ha]

/-- From `s` to `t` the decoder, both records of statistics and the trace are kept, and no free value is taken. -/
structure CoreKept (s t : State) : Prop where
  params : t.params = s.params
  dec : t.dec = s.dec
  dstat : t.dstat = s.dstat
  cstat : t.cstat = s.cstat
  trace : t.trace = s.trace
  draws : t.draws = s.draws

theorem CoreKept.trans {s t u : State} (h : CoreKept s t) (k : CoreKept t u) : CoreKept s u :=
  ⟨k.params.trans h.params, k.dec.trans h.dec, k.dstat.trans h.dstat, k.cstat.trans h.cstat, k.trace.trans h.trace,
    k.draws.trans h.draws⟩

theorem coreKept_turnTaken (s : State) (turns : List Agent) (a : Agent) :
    CoreKept s { s with turns := turns, running := a } := ⟨rfl, rfl, rfl, rfl, rfl, rfl⟩

theorem coreKept_giveResult (r : Result) (s : State) : CoreKept s (giveResult r s) := ⟨rfl, rfl, rfl, rfl, rfl, rfl⟩

theorem coreKept_started (a : Agent) (rs : List Request) (turns : List Agent) (s : State) :
    CoreKept s (started a rs turns s) := by
  constructor <;> simp [started]

/-- A DRAIN's step writes the queue, the results and its own agent only. -/
theorem coreKept_drainStep {d : Drain} {s t : State} (h : drainStep d s = .ok t) : CoreKept s t := by
  obtain ⟨-, rfl⟩ | ⟨left, -, -, -, b, u, -, rfl, rfl⟩ := drainStep_cases h
  · constructor <;> simp
  · split <;> constructor <;> simp

/-- Settles O42: each step of a DRAIN ends it with what it has, or takes the byte at the read cursor and then ends it or
leaves it in progress. -/
theorem drainBeginsWithOnePop : Obligations.DrainBeginsWithOnePop := by
  constructor
  · intro n s rest b
    have hexec : exec (.drain n) s = outcome (drainStep ⟨n, [], false⟩ s) := rfl
    refine ⟨fun hdone => ?_, fun hn hoccupied hrd => ?_⟩
    · rw [hexec, drainStep_of_done (d := ⟨n, [], false⟩) (hdone.imp_right isEmpty_iff.2)]
      exact ⟨_, rfl, by simp⟩
    · have hne := isEmpty_eq_false_iff.2 hoccupied
      obtain rfl | hmore : n = 1 ∨ 2 ≤ n := by omega
      · have hstep := drainStep_of_last (d := ⟨1, [], false⟩) rfl hne hrd
        have hcore := coreKept_drainStep hstep
        rw [hexec, hstep]
        exact ⟨_, rfl, by simp [rest, Queue.popped, advance], by simp [b], by omega, hcore.dec, hcore.dstat,
          hcore.cstat⟩
      · have hstep := drainStep_of_more (d := ⟨n, [], false⟩) hmore hne hrd
        have hcore := coreKept_drainStep hstep
        rw [hexec, hstep]
        exact ⟨_, rfl, by simp [drainGoesOn, rest, Queue.popped, advance], by omega,
          by simp [drainGoesOn, Drain.took, b], hcore.dec, hcore.dstat, hcore.cstat⟩
  · intro s a turns d hturn hdrain rest b staged after frame
    have hstep := step_of_drain hturn hdrain
    let u : State := { s with turns := turns, running := a }
    have hframe {t : State} (h : drainStep d u = .ok t) : frame t := by
      have hcore := coreKept_drainStep h
      have hrunner := runnerOnly_drainStep h
      exact ⟨hcore.params, hcore.dec, hcore.dstat, hcore.cstat, hcore.trace, hrunner.turns, hrunner.running,
        hcore.draws, fun c hc => (hrunner.others c hc).trans (ctxOf_turnTaken ..)⟩
    refine ⟨fun hdone => ?_, fun hoccupied hrd => ⟨fun hlast => ?_, fun hmore => ?_⟩⟩
    · have hend := drainStep_of_done (d := d) (s := u) (hdone.imp_right isEmpty_iff.2)
      rw [hstep, hend]
      exact ⟨_, rfl, hframe hend, by simp [u], by simp [u], by simp [u, after, staged]⟩
    · have hend := drainStep_of_last (s := u) hlast (isEmpty_eq_false_iff.2 hoccupied) hrd
      rw [hstep, hend]
      exact ⟨_, rfl, hframe hend, by simp [u, rest, Queue.popped, advance], by simp [u, b],
        by simp [u, b, after, staged]⟩
    · have hgoes := drainStep_of_more (s := u) hmore (isEmpty_eq_false_iff.2 hoccupied) hrd
      rw [hstep, hgoes]
      exact ⟨_, rfl, hframe hgoes, by simp [u, drainGoesOn, rest, Queue.popped, advance],
        by simp [u, drainGoesOn], by simp [u, drainGoesOn, Drain.took, b, staged]⟩

end Sys2Proof.Machine
end

section
/-! What decoding depends on (40_timing_reference_detector.md R140): states that agree in it stay so byte by byte, and
SAMPLE in direct mode. -/

namespace Sys2Proof.Machine

open Sys2Proof

/-! ### What decoding depends on (R226, R230, 40_timing_reference_detector.md R140) -/

/-- The parameters that a PBYTE step reads: all but the capacity, the mode and the width of DRAIN's operand. -/
def decodingParams (p : Params) : Setup := { p.toSetup with qcap := 0, mode := .buffered, maxw := 0 }

/-- Fed the same bytes, `s` and `t` decode alike: what a PBYTE step reads is equal in both, but for the time stamps and
the free values where `timed` fails, which asks for the frozen policy. -/
structure DecodesAlike (timed : Prop) (s t : State) : Prop where
  params : decodingParams t.params = decodingParams s.params
  dec : t.dec = s.dec
  dstat : t.dstat.untimed = s.dstat.untimed
  trace : t.trace = s.trace
  clock : timed → t.dstat.lastFrameTime = s.dstat.lastFrameTime ∧ t.draws = s.draws
  policy : timed ∨ s.params.errcntPolicy = .frozen

section
variable {timed : Prop} {s t u : State}

theorem DecodesAlike.xyw (h : DecodesAlike timed s t) : t.params.xyw = s.params.xyw :=
  (congrArg Setup.xyw h.params : _)
theorem DecodesAlike.statw (h : DecodesAlike timed s t) : t.params.statw = s.params.statw :=
  (congrArg Setup.statw h.params : _)
theorem DecodesAlike.timew (h : DecodesAlike timed s t) : t.params.timew = s.params.timew :=
  (congrArg Setup.timew h.params : _)
theorem DecodesAlike.demuxMarker3 (h : DecodesAlike timed s t) : t.params.demuxMarker3 = s.params.demuxMarker3 :=
  (congrArg Setup.demuxMarker3 h.params : _)
theorem DecodesAlike.errcntPolicy (h : DecodesAlike timed s t) : t.params.errcntPolicy = s.params.errcntPolicy :=
  (congrArg Setup.errcntPolicy h.params : _)

theorem DecodesAlike.trans (h : DecodesAlike timed s t) (k : DecodesAlike timed t u) : DecodesAlike timed s u where
  params := k.params.trans h.params
  dec := k.dec.trans h.dec
  dstat := k.dstat.trans h.dstat
  trace := k.trace.trans h.trace
  clock ht := ⟨(k.clock ht).1.trans (h.clock ht).1, (k.clock ht).2.trans (h.clock ht).2⟩
  policy := h.policy

/-- The Decoder Statistics, where the time stamps agree as well. -/
theorem DecodesAlike.dstat_eq (h : DecodesAlike timed s t) (ht : timed) : t.dstat = s.dstat := by
  have huntimed := h.dstat
  have hstamp := (h.clock ht).1
  cases hs : s.dstat
  cases ht : t.dstat
  simp_all [DecoderStats.untimed]

/-- The Decoder Context and the Decoder Statistics are written alike. -/
theorem DecodesAlike.write (h : DecodesAlike timed s t) {d e : Decoder} {ds dt : DecoderStats} (hdec : e = d)
    (hdstat : dt.untimed = ds.untimed) (hclock : timed → dt.lastFrameTime = ds.lastFrameTime) :
    DecodesAlike timed { s with dec := d, dstat := ds } { t with dec := e, dstat := dt } :=
  ⟨h.params, hdec, hdstat, h.trace, fun ht => ⟨hclock ht, (h.clock ht).2⟩, h.policy⟩

theorem DecodesAlike.writeDec (h : DecodesAlike timed s t) {d e : Decoder} (hdec : e = d) :
    DecodesAlike timed { s with dec := d } { t with dec := e } :=
  h.write hdec h.dstat fun ht => (h.clock ht).1

theorem DecodesAlike.emit (h : DecodesAlike timed s t) (on : Bool) (e : Event) :
    DecodesAlike timed (emit on e s) (emit on e t) :=
  ⟨h.params, h.dec, h.dstat, by simp [h.trace], h.clock, h.policy⟩

theorem DecodesAlike.drawn (h : DecodesAlike timed s t) : DecodesAlike timed (drawn s) (drawn t) :=
  ⟨h.params, h.dec, h.dstat, h.trace, fun ht => ⟨(h.clock ht).1, by simp [(h.clock ht).2]⟩, h.policy⟩

theorem DecodesAlike.setFsm (h : DecodesAlike timed s t) (f : Fsm) :
    DecodesAlike timed (setFsm f s) (setFsm f t) := h.writeDec (by rw [h.dec])

theorem DecodesAlike.dispatchSample (h : DecodesAlike timed s t) :
    DecodesAlike timed (dispatchSample s) (dispatchSample t) := by
  unfold Machine.dispatchSample
  rw [h.dec]
  exact (h.emit _ _).emit _ _

theorem DecodesAlike.endGroup (h : DecodesAlike timed s t) : DecodesAlike timed (endGroup s) (endGroup t) := by
  have hdstat := h.dstat
  refine h.write (by rw [h.dec, h.xyw]) ?_ fun ht => (h.clock ht).1
  simp_all [DecoderStats.untimed, h.statw]

theorem DecodesAlike.demux (h : DecodesAlike timed s t) (b : Byte) :
    DecodesAlike timed (demux b s) (demux b t) := by
  have hwrite (f : Decoder → Decoder) : DecodesAlike timed { s with dec := f s.dec } { t with dec := f t.dec } :=
    h.writeDec (by rw [h.dec])
  unfold Machine.demux
  rw [h.dec]
  cases s.dec.phase with
  | y1 => exact hwrite fun d => { d with curY := b, phase := .cb }
  | cb => exact hwrite fun d => { d with curCb := b, phase := .y2 }
  | y2 => exact hwrite fun d => { d with curY := b, phase := .cr }
  | cr => exact (hwrite fun d => { d with curCr := b }).dispatchSample.endGroup

theorem DecodesAlike.offerData (h : DecodesAlike timed s t) (b : Byte) :
    DecodesAlike timed (offerData b s) (offerData b t) := by
  unfold Machine.offerData
  rw [h.dec]
  split
  · exact h.demux b
  · exact h

/-- The time stamp of a frame is one more reading of `now()`. -/
theorem DecodesAlike.readNow (h : DecodesAlike timed s t) (ht : timed) : readNow t = readNow s := by
  rw [Machine.readNow, h.timew, (h.clock ht).2, Machine.readNow]

theorem DecodesAlike.vsyncRise (h : DecodesAlike timed s t) : DecodesAlike timed (vsyncRise s) (vsyncRise t) := by
  have hdstat := h.dstat
  unfold Machine.vsyncRise
  rw [h.dec]
  refine (DecodesAlike.drawn (h.write rfl ?_ h.readNow)).emit _ _
  simp_all [DecoderStats.untimed, h.statw]

theorem DecodesAlike.bumpLine (h : DecodesAlike timed s t) : DecodesAlike timed (bumpLine s) (bumpLine t) :=
  h.writeDec (by rw [h.dec, h.xyw])

theorem DecodesAlike.hsyncRise (h : DecodesAlike timed s t) : DecodesAlike timed (hsyncRise s) (hsyncRise t) := by
  have hdstat := h.dstat
  unfold Machine.hsyncRise
  rw [h.dec]
  refine ((h.write rfl ?_ ?_).emit _ _).bumpLine
  · simp_all [DecoderStats.untimed, h.statw]
  · exact fun ht => (h.clock ht).1

theorem DecodesAlike.vsyncCheck (h : DecodesAlike timed s t) (f : SyncFlags) :
    DecodesAlike timed (vsyncCheck f s) (vsyncCheck f t) := by
  unfold Machine.vsyncCheck
  rw [h.dec]
  split
  · exact h.vsyncRise
  · exact h

theorem DecodesAlike.hsyncCheck (h : DecodesAlike timed s t) (f : SyncFlags) :
    DecodesAlike timed (hsyncCheck f s) (hsyncCheck f t) := by
  unfold Machine.hsyncCheck
  rw [h.dec]
  split
  · exact h.hsyncRise
  · exact h

theorem DecodesAlike.savCheck (h : DecodesAlike timed s t) (f : SyncFlags) :
    DecodesAlike timed (savCheck f s) (savCheck f t) := by
  rw [savCheck_eq, savCheck_eq]
  exact h.writeDec (by rw [h.dec])

theorem DecodesAlike.syncControl (h : DecodesAlike timed s t) (f : SyncFlags) :
    DecodesAlike timed (syncControl f s) (syncControl f t) :=
  have hchecks := ((h.vsyncCheck f).hsyncCheck f).savCheck f
  hchecks.writeDec (by rw [hchecks.dec])

theorem DecodesAlike.armXyLate (h : DecodesAlike timed s t) (f : SyncFlags) :
    DecodesAlike timed (armXyLate f s) (armXyLate f t) := (h.syncControl f).setFsm _

theorem DecodesAlike.armFf00Zero (h : DecodesAlike timed s t) :
    DecodesAlike timed (armFf00Zero s) (armFf00Zero t) := by
  unfold Machine.armFf00Zero
  rw [h.demuxMarker3]
  split
  · exact (h.setFsm _).offerData _
  · exact h.setFsm _

theorem DecodesAlike.detect (h : DecodesAlike timed s t) (b : Byte) :
    DecodesAlike timed (detect b s) (detect b t) := by
  have hdata (f : Fsm) (c : Byte) : DecodesAlike timed (Machine.offerData c (Machine.setFsm f s))
      (Machine.offerData c (Machine.setFsm f t)) := (h.setFsm f).offerData c
  unfold Machine.detect
  rw [h.dec]
  split
  · split <;> exact hdata _ _
  · split <;> exact hdata _ _
  · split
    · exact h.armFf00Zero
    · exact hdata _ _
  · exact (h.setFsm .controlByte).armXyLate _
  · exact h.armXyLate _
  all_goals exact hdata _ _

theorem DecodesAlike.applyErrorPolicy (h : DecodesAlike timed s t) :
    DecodesAlike timed (applyErrorPolicy s) (applyErrorPolicy t) := by
  unfold Machine.applyErrorPolicy
  rw [h.errcntPolicy]
  cases hpolicy : s.params.errcntPolicy with
  | frozen => exact h
  | free =>
    have htimed : timed := h.policy.resolve_right (by simp [hpolicy])
    have hdraws := (h.clock htimed).2
    have hdstat := h.dstat_eq htimed
    refine ⟨h.params, h.dec, ?_, h.trace, fun _ => ?_, h.policy⟩ <;> simp [hdraws, hdstat, h.statw]

/-- A byte finds and leaves both decoders alike. -/
theorem DecodesAlike.feedByte (h : DecodesAlike timed s t) (b : Byte) :
    DecodesAlike timed (feedByte b s) (feedByte b t) := (h.detect b).applyErrorPolicy

theorem DecodesAlike.feedBytes (h : DecodesAlike timed s t) (bs : List Byte) :
    DecodesAlike timed (feedBytes bs s) (feedBytes bs t) := by
  induction bs generalizing s t with
  | nil => exact h
  | cons b bs ih => exact ih (h.feedByte b)

end

/-- The queue, the Capture Statistics, the results and the agents have no part in decoding. -/
theorem decodesAlike_of_eq {s t : State} (hparams : t.params = s.params) (hdec : t.dec = s.dec)
    (hdstat : t.dstat = s.dstat) (htrace : t.trace = s.trace) (hdraws : t.draws = s.draws) : DecodesAlike True s t :=
  ⟨by rw [hparams], hdec, by rw [hdstat], htrace, fun _ => ⟨by rw [hdstat], hdraws⟩, .inl trivial⟩

theorem CoreKept.decodesAlike {s t : State} (h : CoreKept s t) : DecodesAlike True s t :=
  decodesAlike_of_eq h.params h.dec h.dstat h.trace h.draws

theorem DecoderOnly.ctxOf {s t : State} (h : DecoderOnly s t) (a : Agent) : ctxOf t a = ctxOf s a := by
  cases a with
  | producer => exact h.producer
  | consumer => exact h.consumer
  | host => exact h.host

/-- Settles O44: the two counters have no part in the PBYTE step, and the service times none in the decoder. -/
theorem sampleInDirectMode : Obligations.SampleInDirectMode := by
  intro b s hmode
  let counted := countCaptured (countInterrupt s)
  have halike : DecodesAlike True s counted := decodesAlike_of_eq rfl rfl rfl rfl rfl
  have hfed := halike.feedByte b
  have honly := decoderOnly_feedByte b counted
  have hagents (a : Agent) : ctxOf (stampService (feedByte b counted)) a = ctxOf s a := by
    rw [show ctxOf (stampService (feedByte b counted)) a = ctxOf (feedByte b counted) a by cases a <;> rfl,
      honly.ctxOf]
    cases a <;> rfl
  refine ⟨_, _, execSample_direct hmode, rfl, hfed.dec, hfed.dstat_eq trivial, hfed.trace, honly.queue, honly.results,
    honly.params, ?_, ?_, ?_, ?_, hagents⟩
  all_goals rw [stampService_cstat, honly.cstat]; rfl

end Sys2Proof.Machine
end

section
/-! Undisturbed runs (44_capture_queue.md R222, R225, R229): filling the queue, a DRAIN and a SERVICE with no other
agent's step between their own. -/

namespace Sys2Proof.Machine

open Sys2Proof

/-! ### Filling the queue (R225) -/

@[simp] theorem contents_length (p : Params) (q : Queue) : (Queue.contents p q).length = Queue.count p q := by
  simp [Queue.contents]

theorem execAll_cons_of_next {i : Instr} {is : List Instr} {s t : State} (h : exec i s = .next t) :
    execAll (i :: is) s = execAll is t := by
  simp [execAll, h]

theorem execAll_append_of_next {is js : List Instr} {s t : State} (h : execAll is s = .next t) :
    execAll (is ++ js) s = execAll js t := by
  induction is generalizing s with
  | nil => cases h; rfl
  | cons i is ih =>
    cases hi : exec i s with
    | next u =>
      rw [execAll_cons_of_next hi] at h
      rw [List.cons_append, execAll_cons_of_next hi, ih h]
    | fault f => simp [execAll, hi] at h
    | refused r => simp [execAll, hi] at h

/-- From `s` to `t` the bytes `bs` have joined the queue, each with the results `rs` and none with an overflow. -/
structure Filled (rs : List Result) (bs : List Byte) (s t : State) : Prop where
  params : t.params = s.params
  queue : Queue.Inv s.params t.queue
  contents : Queue.contents s.params t.queue = Queue.contents s.params s.queue ++ bs
  overflows : t.cstat.bufferOverflows = s.cstat.bufferOverflows
  results : t.results = s.results ++ (List.replicate bs.length rs).flatten
  dec : t.dec = s.dec
  dstat : t.dstat = s.dstat
  trace : t.trace = s.trace

/-- Under the parameters `p` the instruction of a byte puts it in the queue wherever there is room. -/
def Fills (p : Params) (rs : List Result) (i : Byte → Instr) : Prop :=
  ∀ b s, s.params = p → Queue.Inv p s.queue → s.queue.full = false → ∃ t, exec (i b) s = .next t ∧ Filled rs [b] s t

theorem fills_push (p : Params) : Fills p [.pushAccepted true] .push := by
  rintro b s rfl hinv hf
  exact ⟨_, execPush_of_room hf hinv.wr_lt, rfl, hinv.pushed hf b, hinv.contents_pushed hf b, rfl, rfl, rfl, rfl, rfl⟩

theorem fills_sample {p : Params} (hmode : p.mode = .buffered) : Fills p [] .sample := by
  rintro b s rfl hinv hf
  exact ⟨_, execSample_of_room hmode hf hinv.wr_lt, rfl, hinv.pushed hf b, hinv.contents_pushed hf b, rfl,
    (List.append_nil _).symm, rfl, rfl, rfl⟩

theorem filled_execAll {p : Params} {rs : List Result} {i : Byte → Instr} (hfills : Fills p rs i) (bs : List Byte)
    {s : State} (hp : s.params = p) (hinv : Queue.Inv p s.queue) (hroom : Queue.count p s.queue + bs.length ≤ p.qcap) :
    ∃ t, execAll (bs.map i) s = .next t ∧ Filled rs bs s t := by
  induction bs generalizing s with
  | nil => subst hp; exact ⟨s, rfl, by constructor <;> simp [hinv]⟩
  | cons b bs ih =>
    rw [List.length_cons] at hroom
    have hf : s.queue.full = false := by
      by_contra hfull
      have := count_full (p := p) (Bool.eq_true_of_not_eq_false hfull)
      omega
    obtain ⟨u, hexec, hu⟩ := hfills b s hp hinv hf
    have hup : u.params = p := hu.params.trans hp
    have hqueue := hu.queue
    have hcontents := hu.contents
    rw [hp] at hqueue hcontents
    have hcount : Queue.count p u.queue = Queue.count p s.queue + 1 := by
      simpa using congrArg List.length hcontents
    obtain ⟨t, hexecs, ht⟩ := ih hup hqueue (by omega)
    refine ⟨t, (execAll_cons_of_next hexec).trans hexecs, ?_⟩
    constructor
    case params => rw [ht.params, hu.params]
    case queue => rw [hp, ← hup]; exact ht.queue
    case contents => rw [hp, ← hup, ht.contents, hup, hcontents, List.append_assoc]; rfl
    case overflows => rw [ht.overflows, hu.overflows]
    case results => rw [ht.results, hu.results]; simp [List.replicate_succ]
    case dec => rw [ht.dec, hu.dec]
    case dstat => rw [ht.dstat, hu.dstat]
    case trace => rw [ht.trace, hu.trace]

/-- An empty queue has room for as many bytes as it has cells. -/
theorem filled_execAll_of_empty {s : State} {rs : List Result} {i : Byte → Instr} (hfills : Fills s.params rs i)
    (hinv : Queue.Inv s.params s.queue) (hempty : Queue.isEmpty s.queue = true) {bs : List Byte}
    (hlength : bs.length ≤ s.params.qcap) :
    ∃ t, execAll (bs.map i) s = .next t ∧ Filled rs bs s t ∧ Queue.contents s.params t.queue = bs := by
  have hnone : Queue.contents s.params s.queue = [] := contents_of_isEmpty hempty
  have hcount : Queue.count s.params s.queue = 0 := by rw [← contents_length, hnone]; rfl
  obtain ⟨t, hexecs, ht⟩ := filled_execAll hfills bs rfl hinv (by omega)
  exact ⟨t, hexecs, ht, by rw [ht.contents, hnone]; rfl⟩

/-- Settles O47: the first bytes find room, and with them the queue is full. -/
theorem overflowKeepsTheOldestBytes : Obligations.OverflowKeepsTheOldestBytes := by
  intro bs b s hinv hmeet hf hlength
  obtain ⟨u, hpushes, hu, hcontents⟩ :=
    filled_execAll_of_empty (fills_push s.params) hinv (isEmpty_iff.2 ⟨hmeet, hf⟩) hlength.le
  have hcount : Queue.count s.params u.queue = s.params.qcap := by rw [← contents_length, hcontents, hlength]
  have hfull : u.queue.full = true := by
    by_contra hroom
    exact absurd hcount (hu.queue.count_lt (Bool.eq_false_of_not_eq_true hroom)).ne
  have hlast : execAll [.push b] u = .next (giveResult (.pushAccepted false) (countOverflow u)) :=
    execAll_cons_of_next (execPush_of_full hfull)
  refine ⟨_, (execAll_append_of_next hpushes).trans hlast, hcontents, hcount, ?_, ?_⟩
  · simp [hu.params, hu.overflows]
  · simp [hu.results, hlength]

/-! ### An undisturbed DRAIN (R222) -/

theorem runSteps_succ_of_next {s t : State} (h : step s = .next t) (k : Nat) : runSteps (k + 1) s = runSteps k t := by
  simp [runSteps, h]

theorem runSteps_add_of_next {j : Nat} {s t : State} (h : runSteps j s = .next t) (k : Nat) :
    runSteps (j + k) s = runSteps k t := by
  induction j generalizing s with
  | zero => cases h; rw [Nat.zero_add]
  | succ j ih =>
    cases hs : step s with
    | next u =>
      rw [runSteps_succ_of_next hs] at h
      rw [Nat.add_right_comm, runSteps_succ_of_next hs, ih h]
    | fault f => simp [runSteps, hs] at h
    | refused r => simp [runSteps, hs] at h

theorem drainSteps_of_done {n count : Nat} (h : n = 0 ∨ count = 0) : drainSteps n count = 1 := by
  unfold drainSteps; omega

theorem drainSteps_of_last (count : Nat) : drainSteps 1 count = 1 := by
  unfold drainSteps; omega

theorem drainSteps_of_more {n : Nat} (hn : 2 ≤ n) (count : Nat) :
    drainSteps n (count + 1) = drainSteps (n - 1) count + 1 := by
  unfold drainSteps; omega

theorem replicate_append_pred {α : Type} {k : Nat} (hk : 0 < k) (a : α) (l : List α) :
    List.replicate k a ++ l = a :: (List.replicate (k - 1) a ++ l) := by
  rw [← List.cons_append, ← List.replicate_succ, Nat.sub_add_cancel hk]

/-- The context `c` of an agent once its DRAIN `d` has taken the further bytes `bs` and ended. -/
def AgentCtx.afterDrain (d : Drain) (bs : List Byte) (c : AgentCtx) : AgentCtx :=
  { requests := if d.thenFeed then (d.got ++ bs).map .byte ++ c.requests else c.requests
    drain := none
    staging := if d.thenFeed then c.staging else c.staging ++ bs }

/-- From `s` to `t` the agent `a` has taken the bytes `bs` of the queue for its DRAIN `d`, which has ended. -/
structure Drained (a : Agent) (d : Drain) (bs : List Byte) (s t : State) : Prop where
  core : CoreKept s t
  queue : Queue.Inv s.params t.queue
  contents : Queue.contents s.params s.queue = bs ++ Queue.contents s.params t.queue
  results : t.results = s.results ++ [.drained (d.got ++ bs)]
  ctx : ctxOf t a = (ctxOf s a).afterDrain d bs

theorem drained_of_done {a : Agent} {d : Drain} {s : State} (ha : s.running = a)
    (hinv : Queue.Inv s.params s.queue) (hdone : d.remaining = 0 ∨ Queue.isEmpty s.queue = true) :
    Drained a d [] s (finishDrain d.got d.thenFeed s) where
  core := coreKept_drainStep (drainStep_of_done hdone)
  queue := by simpa using hinv
  contents := by simp
  results := by simp
  ctx := by simp [ha, AgentCtx.afterDrain]

theorem drained_of_last {a : Agent} {d : Drain} {s : State} (ha : s.running = a)
    (hinv : Queue.Inv s.params s.queue) (hlast : d.remaining = 1) (hne : Queue.isEmpty s.queue = false) :
    let b := cellValue s.queue.buf s.queue.rd
    Drained a d [b] s (finishDrain (d.got ++ [b]) d.thenFeed (drainTaken d s)) where
  core := coreKept_drainStep (drainStep_of_last hlast hne hinv.rd_lt)
  queue := by simpa using hinv.popped hne
  contents := by simpa using hinv.contents_eq_cons hne
  results := by simp
  ctx := by simp [ha, AgentCtx.afterDrain]

/-- A DRAIN that goes on, and then takes the bytes `bs` and ends, has taken all of them. -/
theorem Drained.of_more {a : Agent} {d : Drain} {bs : List Byte} {turns : List Agent} {s t : State}
    (ha : s.running = a) (hinv : Queue.Inv s.params s.queue) (hmore : 2 ≤ d.remaining)
    (hne : Queue.isEmpty s.queue = false)
    (h : Drained a (d.took (cellValue s.queue.buf s.queue.rd)) bs
      { drainGoesOn d s with turns := turns, running := a } t) :
    Drained a d (cellValue s.queue.buf s.queue.rd :: bs) s t := by
  have hfirst := coreKept_drainStep (drainStep_of_more hmore hne hinv.rd_lt)
  have hctx : ctxOf (drainGoesOn d s) a = _ := ctxOf_setDrain ((drainTaken_running d s).trans ha) _
  obtain ⟨⟨hparams, hdec, hdstat, hcstat, htrace, hdraws⟩, hqueue, hcontents, hresults, hend⟩ := h
  constructor
  case core =>
    exact ⟨hparams.trans hfirst.params, hdec.trans hfirst.dec, hdstat.trans hfirst.dstat, hcstat.trans hfirst.cstat,
      htrace.trans hfirst.trace, hdraws.trans hfirst.draws⟩
  case queue => simpa [drainGoesOn] using hqueue
  case contents =>
    rw [hinv.contents_eq_cons hne, List.cons_append]
    simpa [drainGoesOn] using hcontents
  case results => simpa [drainGoesOn, Drain.took] using hresults
  case ctx =>
    rw [hend, ctxOf_turnTaken, hctx, ctxOf_drainTaken ha]
    cases hfeed : d.thenFeed <;> simp [AgentCtx.afterDrain, Drain.took, hfeed]

/-- A DRAIN `d` that the step from `s` begins or goes on with, and that no other agent's step interrupts, takes the
oldest bytes of the queue, by induction on how many are still to come. -/
theorem drained_runSteps {a : Agent} {turns : List Agent} (n : Nat) {d : Drain} {s u : State} (hn : d.remaining = n)
    (hstep : step s = outcome (drainStep d u)) (ha : u.running = a) (hinv : Queue.Inv u.params u.queue)
    (hturns : u.turns = List.replicate (drainSteps n (Queue.count u.params u.queue) - 1) a ++ turns) :
    ∃ t, runSteps (drainSteps n (Queue.count u.params u.queue)) s = .next t ∧ t.turns = turns ∧
      Drained a d ((Queue.contents u.params u.queue).take n) u t := by
  induction n generalizing d s u with
  | zero =>
    rw [drainSteps_of_done (.inl rfl)] at hturns ⊢
    rw [drainStep_of_done (.inl hn)] at hstep
    exact ⟨_, runSteps_succ_of_next hstep 0, by simpa using hturns, drained_of_done ha hinv (.inl hn)⟩
  | succ n ih =>
    cases he : Queue.isEmpty u.queue with
    | true =>
      have hnone : Queue.contents u.params u.queue = [] := contents_of_isEmpty he
      have hcount : Queue.count u.params u.queue = 0 := by rw [← contents_length, hnone]; rfl
      rw [hcount, drainSteps_of_done (.inr rfl)] at hturns ⊢
      rw [drainStep_of_done (.inr he)] at hstep
      rw [hnone]
      exact ⟨_, runSteps_succ_of_next hstep 0, by simpa using hturns, drained_of_done ha hinv (.inr he)⟩
    | false =>
      have hcons := hinv.contents_eq_cons he
      rw [hcons, List.take_succ_cons]
      obtain rfl | hpos := Nat.eq_zero_or_pos n
      · rw [drainSteps_of_last] at hturns ⊢
        rw [drainStep_of_last hn he hinv.rd_lt] at hstep
        exact ⟨_, runSteps_succ_of_next hstep 0, by simpa using hturns, drained_of_last ha hinv hn he⟩
      · have hmore : 2 ≤ d.remaining := by omega
        rw [← hinv.count_popped he, drainSteps_of_more (by omega), Nat.add_sub_cancel, Nat.add_sub_cancel] at hturns
        rw [← hinv.count_popped he, drainSteps_of_more (by omega), Nat.add_sub_cancel]
        rw [drainStep_of_more hmore he hinv.rd_lt] at hstep
        let v := drainGoesOn d u
        have hturn : v.turns = a :: (List.replicate
            (drainSteps n (Queue.count u.params (Queue.popped u.params u.queue)) - 1) a ++ turns) := by
          simpa [v, drainGoesOn, hturns] using replicate_append_pred (by unfold drainSteps; omega) a turns
        have hdrain : (ctxOf v a).drain = some (d.took (cellValue u.queue.buf u.queue.rd)) := by
          simp [v, drainGoesOn, ha]
        obtain ⟨t, hrun, hend, ht⟩ := ih (d := d.took (cellValue u.queue.buf u.queue.rd)) (by simp [Drain.took, hn])
          (step_of_drain hturn hdrain) rfl (by simpa [v, drainGoesOn] using hinv.popped he) (by simp [v, drainGoesOn])
        refine ⟨t, ?_, hend, ?_⟩
        · rw [runSteps_succ_of_next hstep]
          simpa [v, drainGoesOn] using hrun
        · exact Drained.of_more ha hinv hmore he (by simpa [v, drainGoesOn] using ht)

/-! ### The request of a DRAIN (30_encoding.md R120, 00_scope.md R13) -/

/-- An encoded instruction that a command word spells is the one its request runs. -/
theorem startRequest_requestOf_encode {i : Instr} {s : State} (hwf : wellFormed s.params i = true)
    (happlies : i.appliesIn s.params (.command s.params.drainBits) = true) :
    startRequest (requestOf (encode i)) s = .instr i s := by
  have hdecode := encodedInstructionsDecodeBack s.params i _ hwf happlies
  cases hword : encode i with
  | command w =>
    rw [hword] at hdecode
    exact congrArg (Fetched.instr · s) (Except.ok.inj hdecode)
  | byte b =>
    rw [hword] at hdecode
    cases hdecode

/-- An agent whose oldest request begins a DRAIN, that of a SERVICE if `thenFeed`, and who takes the steps it needs with
no other agent between them, takes the oldest bytes of the queue. -/
theorem drained_of_request {a : Agent} {n : Nat} {thenFeed : Bool} {r : Request} {rs : List Request}
    {turns : List Agent} {s : State} (hinv : Queue.Inv s.params s.queue) (hdrain : (ctxOf s a).drain = none)
    (hreq : (ctxOf s a).requests = r :: rs)
    (hrun : ∀ u : State, u.params = s.params → (startRequest r u).run = outcome (drainStep ⟨n, [], thenFeed⟩ u))
    (hturns : s.turns = List.replicate (drainSteps n (Queue.count s.params s.queue)) a ++ turns) :
    ∃ t later, runSteps (drainSteps n (Queue.count s.params s.queue)) s = .next t ∧ t.turns = turns ∧
      Drained a ⟨n, [], thenFeed⟩ ((Queue.contents s.params s.queue).take n) (started a rs later s) t := by
  rw [replicate_append_pred (by unfold drainSteps; omega)] at hturns
  have hstep := step_of_request hturns hdrain hreq
  rw [hrun _ (started_params ..)] at hstep
  let u := started a rs (List.replicate (drainSteps n (Queue.count s.params s.queue) - 1) a ++ turns) s
  obtain ⟨t, hsteps, hend, ht⟩ := drained_runSteps (a := a) (u := u) (turns := turns) n rfl hstep (by simp [u])
    (by simpa [u]) (by simp [u])
  simp only [u, started_params, started_queue] at hsteps ht
  exact ⟨t, _, hsteps, hend, ht⟩

theorem Drained.contents_eq_drop {a : Agent} {d : Drain} {bs : List Byte} {s t : State} (h : Drained a d bs s t)
    {n : Nat} (hbs : bs = (Queue.contents s.params s.queue).take n) :
    Queue.contents s.params t.queue = (Queue.contents s.params s.queue).drop n := by
  have hcontents := h.contents
  rw [hbs] at hcontents
  exact (List.append_cancel_left ((List.take_append_drop ..).trans hcontents)).symm

/-- Settles O48: the request begins the DRAIN, by word or on `drain_max`. -/
theorem undisturbedDrainTakesTheOldestBytes : Obligations.UndisturbedDrainTakesTheOldestBytes := by
  intro n s rs turns hinv hdrain hreq hturns
  have hbegins : ∃ r, s.consumer.requests = r :: rs ∧
      ∀ u : State, u.params = s.params → (startRequest r u).run = outcome (drainStep ⟨n, [], false⟩ u) := by
    obtain ⟨hn, hword⟩ | ⟨hn, hport⟩ := hreq
    · refine ⟨_, hword, fun u hu => ?_⟩
      have hmaxw : n < 2 ^ s.params.maxw := hn.trans_le (Nat.pow_le_pow_right two_pos s.params.drainBits_le_maxw)
      have hwf : wellFormed u.params (.drain n) = true := by simpa [wellFormed, hu] using hmaxw
      rw [startRequest_requestOf_encode hwf (by simpa [Instr.appliesIn, hu] using hn)]
      rfl
    · refine ⟨_, hport, fun u hu => ?_⟩
      rw [startRequest, hu, Nat.mod_eq_of_lt hn]
      rfl
  obtain ⟨r, hr, hrun⟩ := hbegins
  obtain ⟨t, later, hsteps, hend, ht⟩ := drained_of_request (a := .consumer) hinv hdrain hr hrun hturns
  have hcore := (coreKept_started .consumer rs later s).trans ht.core
  refine ⟨t, hsteps, by simpa using ht.results, by simpa using ht.contents_eq_drop (n := n) (by simp), ?_, hend,
    hcore.dec, hcore.dstat, hcore.cstat, hcore.trace⟩
  have hctx := ht.ctx
  rw [ctxOf_started_same] at hctx
  exact hctx.trans (by simp [AgentCtx.afterDrain, ctxOf])

/-! ### An undisturbed SERVICE (R229) -/

/-- The bytes an agent puts on `din` with no other agent between them are decoded in order, and nothing else is done. -/
theorem fed_runSteps {a : Agent} {rs : List Request} {turns : List Agent} (bs : List Byte) {s : State}
    (hdrain : (ctxOf s a).drain = none) (hreq : (ctxOf s a).requests = bs.map .byte ++ rs)
    (hturns : s.turns = List.replicate bs.length a ++ turns) :
    ∃ t, runSteps bs.length s = .next t ∧ DecodesAlike True (feedBytes bs s) t ∧ t.queue = s.queue ∧
      ctxOf t a = { ctxOf s a with requests := rs } ∧ t.turns = turns := by
  induction bs generalizing s with
  | nil =>
    have hrest : (ctxOf s a).requests = rs := hreq
    exact ⟨s, rfl, decodesAlike_of_eq rfl rfl rfl rfl rfl, rfl, by rw [← hrest], hturns⟩
  | cons b bs ih =>
    let u := started a (bs.map .byte ++ rs) (List.replicate bs.length a ++ turns) s
    have hstep : step s = .next (feedByte b u) := by
      rw [step_of_request hturns hdrain hreq]
      exact (exec_pbyte_eq_exec_decodeStream b u).symm
    have honly := decoderOnly_feedByte b u
    have hctx : ctxOf (feedByte b u) a = { ctxOf s a with requests := bs.map .byte ++ rs } := by
      rw [honly.ctxOf, ctxOf_started_same]
    obtain ⟨t, hsteps, halike, hqueue, hend, hleft⟩ := ih (s := feedByte b u) (by rw [hctx]; exact hdrain)
      (by rw [hctx]) (honly.turns.trans (started_turns ..))
    have hstart : DecodesAlike True s u := (coreKept_started ..).decodesAlike
    refine ⟨t, (runSteps_succ_of_next hstep _).trans hsteps, ((hstart.feedByte b).feedBytes bs).trans halike, ?_, ?_,
      hleft⟩
    · rw [hqueue, honly.queue, started_queue]
    · rw [hend, hctx]

/-- Settles O49: the DRAIN of the SERVICE, and then its bytes on `din`. -/
theorem serviceDecodesWhatItDrains : Obligations.ServiceDecodesWhatItDrains := by
  intro n s rs turns hinv hreq hdrain bytes k hturns
  rw [List.replicate_add, List.append_assoc] at hturns
  obtain ⟨u, later, hdrains, hend, hu⟩ := drained_of_request (a := .consumer) (thenFeed := true) hinv hdrain hreq
    (fun _ _ => rfl) hturns
  have hctx := hu.ctx
  rw [ctxOf_started_same] at hctx
  obtain ⟨t, hfeeds, halike, hqueue, hdone, hleft⟩ := fed_runSteps (a := .consumer) (rs := rs) bytes (s := u)
    (by rw [hctx]; rfl) (by rw [hctx]; rfl) hend
  have hstart := (coreKept_started .consumer rs later s).decodesAlike.trans hu.core.decodesAlike
  have hdecoded := (hstart.feedBytes bytes).trans halike
  refine ⟨t, (runSteps_add_of_next hdrains _).trans hfeeds, hdecoded.dec, hdecoded.dstat_eq trivial, hdecoded.trace, ?_,
    ?_, hleft⟩
  · rw [hqueue]
    simpa using hu.contents_eq_drop (n := n) (by simp)
  · exact hdone.trans (by rw [hctx]; rfl)

end Sys2Proof.Machine
end

section
/-! Buffered and direct mode (44_capture_queue.md R230): one filling of the queue, and any interleaving of a producer, a
consumer that keeps the order and a host that reads. -/

namespace Sys2Proof.Machine

open Sys2Proof

/-! ### Decoding with the error counters frozen (10_state.md R42) -/

/-- Under the frozen policy the time stamps and the free values have no part in decoding either. -/
theorem decodesAlike_of_frozen {s t : State} (hpolicy : s.params.errcntPolicy = .frozen)
    (hparams : decodingParams t.params = decodingParams s.params) (hdec : t.dec = s.dec) (hdstat : t.dstat = s.dstat)
    (htrace : t.trace = s.trace) : DecodesAlike False s t :=
  ⟨hparams, hdec, by rw [hdstat], htrace, False.elim, .inr hpolicy⟩

theorem DecodesAlike.untimed {timed : Prop} {s t : State} (h : DecodesAlike timed s t)
    (hpolicy : s.params.errcntPolicy = .frozen) : DecodesAlike False s t :=
  ⟨h.params, h.dec, h.dstat, h.trace, False.elim, .inr hpolicy⟩

theorem DecodesAlike.symm {timed : Prop} {s t : State} (h : DecodesAlike timed s t) : DecodesAlike timed t s where
  params := h.params.symm
  dec := h.dec.symm
  dstat := h.dstat.symm
  trace := h.trace.symm
  clock ht := ⟨(h.clock ht).1.symm, (h.clock ht).2.symm⟩
  policy := h.policy.imp_right h.errcntPolicy.trans

/-- Direct mode decodes each sample as it is taken. -/
theorem execAll_sample_direct (bs : List Byte) {s : State} (hmode : s.params.mode = .direct)
    (hpolicy : s.params.errcntPolicy = .frozen) :
    ∃ t, execAll (bs.map .sample) s = .next t ∧ DecodesAlike False (feedBytes bs s) t := by
  induction bs generalizing s with
  | nil => exact ⟨s, rfl, decodesAlike_of_frozen hpolicy rfl rfl rfl rfl⟩
  | cons b bs ih =>
    let counted := countCaptured (countInterrupt s)
    let u := stampService (feedByte b counted)
    have hparams : u.params = s.params := (decoderOnly_feedByte b counted).params
    have hcounted : DecodesAlike False s counted := decodesAlike_of_frozen hpolicy rfl rfl rfl rfl
    have hfed : DecodesAlike False (feedByte b s) u := (hcounted.feedByte b).trans
      (decodesAlike_of_frozen ((decoderOnly_feedByte b counted).params ▸ hpolicy) rfl rfl rfl rfl)
    obtain ⟨t, hexecs, ht⟩ := ih (s := u) (hparams ▸ hmode) (hparams ▸ hpolicy)
    have hfirst : exec (.sample b) s = .next u := execSample_direct hmode
    exact ⟨t, (execAll_cons_of_next hfirst).trans hexecs, (hfed.feedBytes bs).trans ht⟩

/-! ### One filling of the queue (R230) -/

/-- The same state under the parameters of direct mode. -/
def inDirectMode (s : State) : State := { s with params := { s.params with mode := .direct } }

/-- The samples in direct mode are decoded as the same bytes fed. -/
theorem execAll_sample_inDirectMode (bs : List Byte) {s : State} (hpolicy : s.params.errcntPolicy = .frozen) :
    ∃ t, execAll (bs.map .sample) (inDirectMode s) = .next t ∧ DecodesAlike False (feedBytes bs s) t := by
  have hstart : DecodesAlike False s (inDirectMode s) := decodesAlike_of_frozen hpolicy rfl rfl rfl rfl
  obtain ⟨t, hexecs, ht⟩ := execAll_sample_direct bs (s := inDirectMode s) rfl hpolicy
  exact ⟨t, hexecs, (hstart.feedBytes bs).trans ht⟩

theorem bothModesDecodeOneFilling (bs : List Byte) {s : State} (hinv : Queue.Inv s.params s.queue)
    (hmode : s.params.mode = .buffered) (hpolicy : s.params.errcntPolicy = .frozen)
    (hempty : Queue.isEmpty s.queue = true) (hlength : bs.length ≤ s.params.qcap) :
    ∃ tb td, execAll (bs.map .sample) s = .next tb ∧ execAll (bs.map .sample) (inDirectMode s) = .next td ∧
      Queue.contents s.params tb.queue = bs ∧ tb.dec = s.dec ∧
      DecodesAlike False (feedBytes (Queue.contents s.params tb.queue) tb) td := by
  obtain ⟨tb, hbuffered, htb, hcontents⟩ := filled_execAll_of_empty (fills_sample hmode) hinv hempty hlength
  obtain ⟨td, hdirect, htd⟩ := execAll_sample_inDirectMode bs hpolicy
  have hkept : DecodesAlike False s tb :=
    decodesAlike_of_frozen hpolicy (by rw [htb.params]) htb.dec htb.dstat htb.trace
  refine ⟨tb, td, hbuffered, hdirect, hcontents, htb.dec, ?_⟩
  rw [hcontents]
  exact (hkept.feedBytes bs).symm.trans htd

/-! ### The other agents during a step (00_scope.md R8) -/

/-- Carrying out a request moves the running agent only. -/
theorem runnerOnly_run_startRequest {r : Request} {s t : State} (h : (startRequest r s).run = .next t) :
    RunnerOnly s t := by
  cases r with
  | command w => exact runnerOnly_exec h
  | byte b => exact runnerOnly_exec h
  | drainMax n => exact runnerOnly_exec (i := .drain _) h
  | edge b => exact runnerOnly_exec (i := .sample b) h
  | feed =>
    cases hstaging : (ctxOf s s.running).staging with
    | nil =>
      rw [startRequest_feed_of_nothing_staged hstaging] at h
      exact (RunnerOnly.refl s).of_next h
    | cons b rest =>
      rw [startRequest_feed_of_staged hstaging] at h
      exact (runnerOnly_setCtx_running _ s).trans (runnerOnly_exec (i := .pbyte b) h)
  | service n => exact runnerOnly_drainStep (eq_ok_of_outcome_eq_next h)
  | discard => exact (runnerOnly_setCtx_running _ s).of_next h

/-- A step moves the agent in turn only. -/
theorem ctxOf_step_of_ne {s t : State} {a b : Agent} {turns : List Agent} (hturn : s.turns = a :: turns)
    (h : step s = .next t) (hb : b ≠ a) : ctxOf t b = ctxOf s b := by
  cases hdrain : (ctxOf s a).drain with
  | some d =>
    rw [step_of_drain hturn hdrain] at h
    exact ((runnerOnly_drainStep (eq_ok_of_outcome_eq_next h)).others b hb).trans (ctxOf_turnTaken ..)
  | none =>
    cases hreq : (ctxOf s a).requests with
    | nil =>
      rw [step_of_idle hturn hdrain hreq] at h
      cases h
      exact ctxOf_turnTaken ..
    | cons r rs =>
      rw [step_of_request hturn hdrain hreq] at h
      refine ((runnerOnly_run_startRequest h).others b (by simpa using hb)).trans ?_
      exact (ctxOf_setCtx_other hb _ _).trans (ctxOf_turnTaken ..)

theorem queueInv_exec {i : Instr} {s t : State} (h : exec i s = .next t) (hinv : Queue.Inv s.params s.queue) :
    Queue.Inv t.params t.queue := by
  obtain hp | ⟨k, v, -, rfl⟩ | ⟨-, rfl⟩ | ⟨-, rfl⟩ := exec_cases h
  · exact hp.params ▸ hp.queue hinv
  all_goals exact hinv

/-- A step keeps the invariant of the queue, whatever the detector and the counters hold. -/
theorem queueInv_step {s t : State} (h : step s = .next t) (hinv : Queue.Inv s.params s.queue) :
    Queue.Inv t.params t.queue := by
  obtain hp | ⟨i, u, hp, h⟩ := step_cases h
  · exact hp.params ▸ hp.queue hinv
  · exact queueInv_exec h (hp.params ▸ hp.queue hinv)

/-! ### The bytes captured and not yet decoded (R230) -/

/-- The captured bytes that the decoder has not seen, oldest first: those in flight, then those queued. -/
def pending (s : State) : List Byte := AgentCtx.inFlight s.consumer ++ Queue.contents s.params s.queue

/-- The state with those bytes decoded. -/
def completed (s : State) : State := feedBytes (pending s) s

/-- Where the decoder is left alone and the bytes `ins` join the others, they are what is left to decode. -/
theorem completed_of_joined {ins : List Byte} {s t : State} (h : DecodesAlike False s t)
    (hpending : pending t = pending s ++ ins) : DecodesAlike False (feedBytes ins (completed s)) (completed t) := by
  rw [completed, completed, hpending, ← feedBytes_append]
  exact h.feedBytes _

theorem completed_of_pending_eq {s t : State} (h : DecodesAlike False s t) (hpending : pending t = pending s) :
    DecodesAlike False (completed s) (completed t) :=
  completed_of_joined (ins := []) h (by rw [hpending, List.append_nil])

/-- The oldest byte in flight is decoded. -/
theorem completed_of_fed {b : Byte} {s u : State} (h : DecodesAlike False s u) (hparams : u.params = s.params)
    (hqueue : u.queue = s.queue) (hflight : AgentCtx.inFlight s.consumer = b :: AgentCtx.inFlight u.consumer) :
    DecodesAlike False (completed s) (completed (feedByte b u)) := by
  obtain ⟨hp, hq, -, -, -, hc, -, -, -, -⟩ := decoderOnly_feedByte b u
  have hpending : pending s = b :: pending (feedByte b u) := by
    rw [pending, pending, hflight, hp, hq, hc, hparams, hqueue, List.cons_append]
  rw [completed, hpending, feedBytes_cons]
  exact (h.feedByte b).feedBytes _

/-! ### A consumer that keeps the order (R228, R229) -/

/-- A request of a consumer that feeds what it has staged. -/
def stagesOrFeeds (r : Request) : Prop :=
  r = .feed ∨ r = requestOf (encode .pop) ∨ r = requestOf (encode .avail) ∨
    ∃ n, r = requestOf (encode (.drain n)) ∨ r = .drainMax n

/-- The agent's requests are all of one kind: SERVICE, with nothing staged, or POP, DRAIN, AVAIL and the feeding of what
is staged. -/
def AgentCtx.Follows (c : AgentCtx) : (serves : Bool) → Prop
  | true => c.staging = [] ∧ ∀ r ∈ c.requests, ∃ n, r = .service n
  | false => ∀ r ∈ c.requests, stagesOrFeeds r

/-- Where a consumer that keeps the order can be: in a DRAIN, at the bytes a SERVICE has drained, or with nothing but
staged bytes in hand. -/
inductive AgentCtx.InOrder (c : AgentCtx) : Prop where
  | draining (d : Drain) (hdrain : c.drain = some d) (h : c.Follows d.thenFeed)
  | serving (bs : List Byte) (rs : List Request) (hdrain : c.drain = none) (hreq : c.requests = bs.map .byte ++ rs)
      (h : { c with requests := rs }.Follows true)
  | staging (hdrain : c.drain = none) (h : c.Follows false)

theorem dinByte_of_stagesOrFeeds {r : Request} (h : stagesOrFeeds r) : Request.dinByte r = none := by
  obtain rfl | rfl | rfl | ⟨n, rfl | rfl⟩ := h <;> rfl

/-- None of these requests puts a byte on `din` by itself. -/
theorem AgentCtx.Follows.no_dinByte {c : AgentCtx} {serves : Bool} (h : c.Follows serves) :
    c.requests.filterMap Request.dinByte = [] := by
  rw [List.filterMap_eq_nil_iff]
  intro r hr
  cases serves with
  | true =>
    obtain ⟨n, rfl⟩ := h.2 r hr
    rfl
  | false => exact dinByte_of_stagesOrFeeds (h r hr)

theorem filterMap_dinByte_map_byte (bs : List Byte) : (bs.map Request.byte).filterMap Request.dinByte = bs := by
  rw [List.filterMap_map]
  exact List.filterMap_some

theorem inFlight_of_draining {c : AgentCtx} {d : Drain} (hdrain : c.drain = some d) (h : c.Follows d.thenFeed) :
    c.inFlight = c.staging ++ if d.thenFeed then d.got else [] := by
  simp [AgentCtx.inFlight, hdrain, h.no_dinByte]

theorem inFlight_of_serving {c : AgentCtx} {bs : List Byte} {rs : List Request} (hdrain : c.drain = none)
    (hreq : c.requests = bs.map .byte ++ rs) (h : { c with requests := rs }.Follows true) : c.inFlight = bs := by
  have hstaging : c.staging = [] := h.1
  have hrest : rs.filterMap Request.dinByte = [] := h.no_dinByte
  rw [AgentCtx.inFlight, hreq, List.filterMap_append, filterMap_dinByte_map_byte, hrest, hstaging, hdrain]
  simp

/-- Between its requests a consumer that keeps the order has only staged bytes in hand. -/
theorem AgentCtx.Follows.inFlight {c : AgentCtx} {serves : Bool} (h : c.Follows serves) (hdrain : c.drain = none) :
    c.inFlight = c.staging := by
  simp [AgentCtx.inFlight, hdrain, h.no_dinByte]

theorem AgentCtx.Follows.tail {c : AgentCtx} {serves : Bool} {r : Request} {rs : List Request}
    (hreq : c.requests = r :: rs) (h : c.Follows serves) : { c with requests := rs }.Follows serves := by
  cases serves with
  | true => exact ⟨h.1, fun q hq => h.2 q (hreq ▸ List.mem_cons_of_mem r hq)⟩
  | false => exact fun q hq => h q (hreq ▸ List.mem_cons_of_mem r hq)

theorem AgentCtx.Follows.inOrder {c : AgentCtx} {serves : Bool} (h : c.Follows serves) (hdrain : c.drain = none) :
    c.InOrder := by
  cases serves with
  | true => exact .serving [] c.requests hdrain rfl h
  | false => exact .staging hdrain h

theorem follows_of_keepsOrder {c : AgentCtx} (hstaging : c.staging = []) (h : keepsOrder c.requests) :
    ∃ serves, c.Follows serves := by
  obtain hserves | hstages := h
  · exact ⟨true, hstaging, hserves⟩
  · exact ⟨false, hstages⟩

/-! ### A DRAIN's step moves bytes from the queue into flight -/

/-- Everything a DRAIN's step does to the queued bytes and to its agent: it takes the oldest ones, and ends the DRAIN or
leaves it in progress. -/
theorem drainStep_takes {a : Agent} {d : Drain} {s t : State} (ha : s.running = a)
    (hinv : Queue.Inv s.params s.queue) (h : drainStep d s = .ok t) :
    ∃ bs, Queue.contents s.params s.queue = bs ++ Queue.contents s.params t.queue ∧
      (ctxOf t a = (ctxOf s a).afterDrain d bs ∨
       ∃ e : Drain, e.got = d.got ++ bs ∧ e.thenFeed = d.thenFeed ∧
        ctxOf t a = { ctxOf s a with
          drain := some e
          staging := if d.thenFeed then (ctxOf s a).staging else (ctxOf s a).staging ++ bs }) := by
  by_cases hdone : d.remaining = 0 ∨ Queue.isEmpty s.queue = true
  · cases (drainStep_of_done hdone).symm.trans h
    have hend := drained_of_done ha hinv hdone
    exact ⟨[], hend.contents, .inl hend.ctx⟩
  · obtain ⟨hwants, hoccupied⟩ := not_or.1 hdone
    have hne := Bool.eq_false_of_not_eq_true hoccupied
    obtain hlast | hmore : d.remaining = 1 ∨ 2 ≤ d.remaining := by omega
    · cases (drainStep_of_last hlast hne hinv.rd_lt).symm.trans h
      have hend := drained_of_last ha hinv hlast hne
      exact ⟨_, hend.contents, .inl hend.ctx⟩
    · cases (drainStep_of_more hmore hne hinv.rd_lt).symm.trans h
      refine ⟨[cellValue s.queue.buf s.queue.rd], ?_, .inr ⟨d.took _, rfl, rfl, ?_⟩⟩
      · simpa [drainGoesOn] using hinv.contents_eq_cons hne
      · simp [drainGoesOn, ha]

/-- A DRAIN that has ended leaves its bytes staged, or about to be put on `din`. -/
theorem inOrder_afterDrain {c : AgentCtx} {d : Drain} (h : c.Follows d.thenFeed) (bs : List Byte) :
    (c.afterDrain d bs).InOrder ∧
      (c.afterDrain d bs).inFlight = (c.staging ++ if d.thenFeed then d.got else []) ++ bs := by
  have hnone : (c.afterDrain d bs).drain = none := rfl
  cases hfeed : d.thenFeed with
  | true =>
    rw [hfeed] at h
    have hreq : (c.afterDrain d bs).requests = (d.got ++ bs).map .byte ++ c.requests := by
      simp [AgentCtx.afterDrain, hfeed]
    have hrest : { c.afterDrain d bs with requests := c.requests }.Follows true := by
      simpa [AgentCtx.afterDrain, AgentCtx.Follows, hfeed] using h
    refine ⟨.serving _ _ hnone hreq hrest, ?_⟩
    rw [inFlight_of_serving hnone hreq hrest, h.1]
    rfl
  | false =>
    rw [hfeed] at h
    have hfollows : (c.afterDrain d bs).Follows false := by simpa [AgentCtx.afterDrain, AgentCtx.Follows, hfeed] using h
    refine ⟨.staging hnone hfollows, ?_⟩
    rw [hfollows.inFlight hnone]
    simp [AgentCtx.afterDrain, hfeed]

/-- A DRAIN in progress keeps its bytes staged, or in its record. -/
theorem inOrder_inDrain {c : AgentCtx} {d e : Drain} (h : c.Follows d.thenFeed) {bs : List Byte}
    (hgot : e.got = d.got ++ bs) (hfeed : e.thenFeed = d.thenFeed) :
    let c' := { c with drain := some e, staging := if d.thenFeed then c.staging else c.staging ++ bs }
    c'.InOrder ∧ c'.inFlight = (c.staging ++ if d.thenFeed then d.got else []) ++ bs := by
  intro c'
  have hfollows : c'.Follows e.thenFeed := by
    rw [hfeed]
    cases hserves : d.thenFeed with
    | true =>
      rw [hserves] at h
      exact ⟨by simpa [c', hserves] using h.1, h.2⟩
    | false =>
      rw [hserves] at h
      exact h
  refine ⟨.draining e rfl hfollows, ?_⟩
  rw [inFlight_of_draining rfl hfollows, hfeed, hgot]
  cases hserves : d.thenFeed <;> simp [c', hserves]

/-- In the hands of a consumer that keeps the order a DRAIN's step leaves the bytes pending as they were. -/
theorem inOrder_drainStep {d : Drain} {s t : State} (ha : s.running = .consumer) (hinv : Queue.Inv s.params s.queue)
    (hfollows : s.consumer.Follows d.thenFeed) (h : drainStep d s = .ok t) :
    t.consumer.InOrder ∧ pending t =
      (s.consumer.staging ++ if d.thenFeed then d.got else []) ++ Queue.contents s.params s.queue := by
  obtain ⟨bs, hcontents, hctx⟩ := drainStep_takes ha hinv h
  have hconsumer : t.consumer.InOrder ∧
      t.consumer.inFlight = (s.consumer.staging ++ if d.thenFeed then d.got else []) ++ bs := by
    obtain hctx | ⟨e, hgot, hfeed, hctx⟩ := hctx
    · rw [show t.consumer = s.consumer.afterDrain d bs from hctx]
      exact inOrder_afterDrain hfollows bs
    · rw [show t.consumer = _ from hctx]
      exact inOrder_inDrain hfollows hgot hfeed
  rw [pending, (coreKept_drainStep h).params, hcontents, ← List.append_assoc, hconsumer.2]
  exact ⟨hconsumer.1, rfl⟩

/-! ### The consumer's steps (R228, R229) -/

/-- From `s` to `t` no sample is taken, the consumer keeps the order, and what is left to decode completes the decoder
as before. -/
structure Consumes (s t : State) : Prop where
  inOrder : t.consumer.InOrder
  overflows : t.cstat.bufferOverflows = s.cstat.bufferOverflows
  completed : DecodesAlike False (completed s) (completed t)

theorem consumes_of_coreKept {s t : State} (hpolicy : s.params.errcntPolicy = .frozen) (hcore : CoreKept s t)
    (hinOrder : t.consumer.InOrder) (hpending : pending t = pending s) : Consumes s t :=
  ⟨hinOrder, by rw [hcore.cstat], completed_of_pending_eq (hcore.decodesAlike.untimed hpolicy) hpending⟩

/-- The state in which the consumer starts a request. -/
theorem started_consumer (rs : List Request) (turns : List Agent) (s : State) :
    (started .consumer rs turns s).consumer = { s.consumer with requests := rs } := rfl

section
variable {s t : State} {serves : Bool} {turns : List Agent} {r : Request} {rs : List Request}
  (hpolicy : s.params.errcntPolicy = .frozen) (hdrain : s.consumer.drain = none) (hreq : s.consumer.requests = r :: rs)
include hpolicy hdrain hreq

/-- A request that finds nothing to pop, to feed or to write. -/
theorem consumes_of_passed (hfollows : s.consumer.Follows serves) (hcore : CoreKept (started .consumer rs turns s) t)
    (hqueue : t.queue = s.queue) (hctx : t.consumer = { s.consumer with requests := rs }) : Consumes s t := by
  have hcore : CoreKept s t := (coreKept_started ..).trans hcore
  have hrest := hfollows.tail hreq
  refine consumes_of_coreKept hpolicy hcore ?_ ?_
  · rw [hctx]
    exact hrest.inOrder hdrain
  · rw [pending, pending, hctx, hqueue, hcore.params, hrest.inFlight hdrain, hfollows.inFlight hdrain]

/-- The first step of a DRAIN or a SERVICE. -/
theorem consumes_of_drain_begun (hinv : Queue.Inv s.params s.queue) (hfollows : s.consumer.Follows serves) {n : Nat}
    (h : drainStep ⟨n, [], serves⟩ (started .consumer rs turns s) = .ok t) : Consumes s t := by
  have hrest : (started .consumer rs turns s).consumer.Follows serves := hfollows.tail hreq
  obtain ⟨hinOrder, hpending⟩ := inOrder_drainStep (started_running ..) (by simpa using hinv) hrest h
  refine consumes_of_coreKept hpolicy ((coreKept_started ..).trans (coreKept_drainStep h)) hinOrder ?_
  rw [hpending, pending, hfollows.inFlight hdrain]
  simp [started_consumer]

/-- A POP stages the oldest byte. -/
theorem consumes_of_pop (hinv : Queue.Inv s.params s.queue) (hfollows : s.consumer.Follows false)
    (h : exec .pop (started .consumer rs turns s) = .next t) : Consumes s t := by
  cases he : Queue.isEmpty s.queue with
  | true =>
    cases (execPop_of_isEmpty (by simpa using he)).symm.trans h
    exact consumes_of_passed hpolicy hdrain hreq hfollows (coreKept_giveResult ..) (by simp) rfl
  | false =>
    cases (execPop_of_nonempty (by simpa using he) (by simpa using hinv.rd_lt)).symm.trans h
    let c : AgentCtx :=
      { s.consumer with requests := rs, staging := s.consumer.staging ++ [cellValue s.queue.buf s.queue.rd] }
    have hrest : c.Follows false := hfollows.tail hreq
    refine consumes_of_coreKept hpolicy ⟨rfl, rfl, rfl, rfl, rfl, rfl⟩ (hrest.inOrder hdrain) ?_
    change c.inFlight ++ Queue.contents s.params (Queue.popped s.params s.queue) = pending s
    rw [hrest.inFlight hdrain, pending, hfollows.inFlight hdrain, hinv.contents_eq_cons he, List.append_assoc]
    rfl

/-- The feeding of the oldest staged byte. -/
theorem consumes_of_feed (hfollows : s.consumer.Follows false)
    (h : (startRequest .feed (started .consumer rs turns s)).run = .next t) : Consumes s t := by
  let u := started .consumer rs turns s
  have hctx : ctxOf u u.running = { s.consumer with requests := rs } := rfl
  cases hstaging : s.consumer.staging with
  | nil =>
    rw [startRequest_feed_of_nothing_staged (by rw [hctx]; exact hstaging)] at h
    cases h
    exact consumes_of_passed hpolicy hdrain hreq hfollows ⟨rfl, rfl, rfl, rfl, rfl, rfl⟩ rfl rfl
  | cons b rest =>
    rw [startRequest_feed_of_staged (b := b) (rest := rest) (by rw [hctx]; exact hstaging)] at h
    obtain rfl := Host.Outcome.next.inj h
    let v := setCtx u.running { ctxOf u u.running with staging := rest } u
    have hrest : v.consumer.Follows false := hfollows.tail hreq
    have hdecodes : DecodesAlike False s v := decodesAlike_of_frozen hpolicy rfl rfl rfl rfl
    have honly := decoderOnly_feedByte b v
    refine ⟨?_, by rw [honly.cstat]; rfl, completed_of_fed hdecodes rfl rfl ?_⟩
    · rw [honly.consumer]
      exact hrest.inOrder hdrain
    · rw [hfollows.inFlight hdrain, hrest.inFlight hdrain, hstaging]
      rfl

/-- A byte that a SERVICE has drained. -/
theorem consumes_of_byte {b : Byte} {bs : List Byte} {rest : List Request} (hr : r = .byte b)
    (hrs : rs = bs.map .byte ++ rest) (hserves : { s.consumer with requests := rest }.Follows true)
    (h : (startRequest r (started .consumer rs turns s)).run = .next t) : Consumes s t := by
  subst hr hrs
  let u := started .consumer (bs.map .byte ++ rest) turns s
  obtain rfl := Host.Outcome.next.inj ((exec_pbyte_eq_exec_decodeStream b u).trans h)
  have hdecodes : DecodesAlike False s u := decodesAlike_of_frozen hpolicy rfl rfl rfl rfl
  have honly := decoderOnly_feedByte b u
  have hctx : u.consumer.requests = bs.map .byte ++ rest := rfl
  refine ⟨?_, by rw [honly.cstat]; rfl, completed_of_fed hdecodes rfl rfl ?_⟩
  · rw [honly.consumer]
    exact .serving bs rest hdrain hctx hserves
  · rw [inFlight_of_serving (bs := b :: bs) hdrain hreq hserves,
      inFlight_of_serving (c := u.consumer) hdrain hctx hserves]

end

/-- What each request of a consumer that feeds what it stages runs. -/
theorem run_of_stagesOrFeeds {r : Request} (h : stagesOrFeeds r) :
    r = .feed ∨ (∀ u, (startRequest r u).run = exec .pop u) ∨ (∀ u, (startRequest r u).run = exec .avail u) ∨
    ∀ u, ∃ n, (startRequest r u).run = outcome (drainStep ⟨n, [], false⟩ u) := by
  obtain rfl | rfl | rfl | ⟨n, rfl | rfl⟩ := h
  · exact .inl rfl
  · exact .inr (.inl fun u => by rw [startRequest_requestOf_encode rfl (by simp [Instr.appliesIn])]; rfl)
  · exact .inr (.inr (.inl fun u => by rw [startRequest_requestOf_encode rfl (by simp [Instr.appliesIn])]; rfl))
  · refine .inr (.inr (.inr fun u => ⟨(BitVec.ofNat 24 n).toNat % 2 ^ u.params.drainBits, ?_⟩))
    have hword : startRequest (requestOf (encode (.drain n))) u =
        .instr (.drain ((BitVec.ofNat 24 n).toNat % 2 ^ u.params.drainBits)) u := by
      simp only [encode, requestOf, startRequest, decodeCommand, Laws.opField_commandWord, Laws.argField_commandWord]
      rfl
    rw [hword]
    rfl
  · exact .inr (.inr (.inr fun u => ⟨_, rfl⟩))

/-- A consumer that keeps the order keeps it in each of its steps, and captures and loses nothing. -/
theorem consumes_of_step {s t : State} {turns : List Agent} (hpolicy : s.params.errcntPolicy = .frozen)
    (hinv : Queue.Inv s.params s.queue) (hturn : s.turns = .consumer :: turns) (horder : s.consumer.InOrder)
    (h : step s = .next t) : Consumes s t := by
  have hidle (hdrain : s.consumer.drain = none) (hreq : s.consumer.requests = []) : Consumes s t := by
    rw [step_of_idle hturn hdrain hreq] at h
    cases h
    exact consumes_of_coreKept hpolicy (coreKept_turnTaken ..) horder rfl
  cases horder with
  | draining d hdrain hfollows =>
    rw [step_of_drain hturn hdrain] at h
    have h := eq_ok_of_outcome_eq_next h
    obtain ⟨hinOrder, hpending⟩ := inOrder_drainStep (s := { s with turns := turns, running := .consumer }) rfl hinv
      hfollows h
    refine consumes_of_coreKept hpolicy ((coreKept_turnTaken ..).trans (coreKept_drainStep h)) hinOrder ?_
    rw [hpending, pending, inFlight_of_draining hdrain hfollows]
  | serving bs rest hdrain hreq hserves =>
    cases bs with
    | cons b bs =>
      rw [step_of_request hturn hdrain hreq] at h
      exact consumes_of_byte hpolicy hdrain hreq rfl rfl hserves h
    | nil =>
      have hfollows : s.consumer.Follows true := by
        rwa [← show s.consumer.requests = rest from hreq] at hserves
      cases rest with
      | nil => exact hidle hdrain hreq
      | cons r rs =>
        obtain ⟨n, rfl⟩ := hserves.2 r List.mem_cons_self
        rw [step_of_request hturn hdrain hreq] at h
        exact consumes_of_drain_begun hpolicy hdrain hreq hinv hfollows (eq_ok_of_outcome_eq_next h)
  | staging hdrain hfollows =>
    cases hreq : s.consumer.requests with
    | nil => exact hidle hdrain hreq
    | cons r rs =>
      rw [step_of_request hturn hdrain hreq] at h
      obtain rfl | hpop | havail | hdrains := run_of_stagesOrFeeds (hfollows r (hreq ▸ List.mem_cons_self))
      · exact consumes_of_feed hpolicy hdrain hreq hfollows h
      · rw [hpop] at h
        exact consumes_of_pop hpolicy hdrain hreq hinv hfollows h
      · rw [havail] at h
        cases h
        exact consumes_of_passed hpolicy hdrain hreq hfollows (coreKept_giveResult ..) rfl rfl
      · obtain ⟨n, hrun⟩ := hdrains (started .consumer rs turns s)
        rw [hrun] at h
        exact consumes_of_drain_begun hpolicy hdrain hreq hinv hfollows (eq_ok_of_outcome_eq_next h)

/-! ### Any interleaving of a producer, a consumer that keeps the order and a host that reads (R230) -/

/-- A host that reads registers. -/
structure AgentCtx.ReadsOnly (c : AgentCtx) : Prop where
  idle : c.drain = none
  reads : ∀ r ∈ c.requests, ∃ i, r = requestOf (encode (.rdstat i))

/-- The step of a host that reads registers keeps the decoder, the statistics and the queue. -/
theorem readsOnly_step {s t : State} {turns : List Agent} (hhost : s.host.ReadsOnly) (hturn : s.turns = .host :: turns)
    (h : step s = .next t) : t.host.ReadsOnly ∧ CoreKept s t ∧ t.queue = s.queue := by
  obtain ⟨hidle, hreads⟩ := hhost
  cases hreq : s.host.requests with
  | nil =>
    cases (step_of_idle hturn hidle hreq).symm.trans h
    exact ⟨⟨hidle, hreads⟩, coreKept_turnTaken .., rfl⟩
  | cons r rs =>
    obtain ⟨i, rfl⟩ := hreads r (hreq ▸ List.mem_cons_self)
    rw [step_of_request hturn hidle hreq, startRequest_requestOf_encode rfl (by simp [Instr.appliesIn])] at h
    cases h
    exact ⟨⟨hidle, fun q hq => hreads q (hreq ▸ List.mem_cons_of_mem _ hq)⟩,
      (coreKept_started ..).trans (coreKept_giveResult ..), rfl⟩

/-- Buffered mode with the error counters frozen, a producer with the edges of `rest` to come, a consumer that keeps the
order, and a host that reads registers. -/
structure Wired (rest : List Byte) (s : State) : Prop where
  mode : s.params.mode = .buffered
  policy : s.params.errcntPolicy = .frozen
  queue : Queue.Inv s.params s.queue
  producer : s.producer = { requests := rest.map .edge, drain := none, staging := [] }
  consumer : s.consumer.InOrder
  host : s.host.ReadsOnly

/-- From `s` to `t` the samples `taken` have been taken: one was rejected, or they are what is left to decode on top of
what was. -/
def Captured (taken : List Byte) (s t : State) : Prop :=
  t.cstat.bufferOverflows = inc s.params.statw s.cstat.bufferOverflows ∨
  (t.cstat.bufferOverflows = s.cstat.bufferOverflows ∧
    DecodesAlike False (feedBytes taken (completed s)) (completed t))

theorem captured_nothing {s t : State} (hpolicy : s.params.errcntPolicy = .frozen) (hcore : CoreKept s t)
    (hqueue : t.queue = s.queue) (hconsumer : t.consumer = s.consumer) : Captured [] s t := by
  refine .inr ⟨by rw [hcore.cstat], completed_of_pending_eq (hcore.decodesAlike.untimed hpolicy) ?_⟩
  rw [pending, pending, hqueue, hconsumer, hcore.params]

/-- An edge is one SAMPLE, which the queue takes or rejects. -/
theorem captured_of_sample {b : Byte} {rs : List Request} {turns : List Agent} {s t : State}
    (hmode : s.params.mode = .buffered) (hpolicy : s.params.errcntPolicy = .frozen)
    (hinv : Queue.Inv s.params s.queue) (h : exec (.sample b) (started .producer rs turns s) = .next t) :
    Captured [b] s t ∧ t.producer = { s.producer with requests := rs } := by
  let u := started .producer rs turns s
  cases hf : s.queue.full with
  | true =>
    cases (execSample_of_full (s := u) hmode hf).symm.trans h
    exact ⟨.inl rfl, rfl⟩
  | false =>
    cases (execSample_of_room (s := u) hmode hf hinv.wr_lt).symm.trans h
    refine ⟨.inr ⟨rfl, completed_of_joined (decodesAlike_of_frozen hpolicy rfl rfl rfl rfl) ?_⟩, rfl⟩
    change s.consumer.inFlight ++ Queue.contents s.params (Queue.pushed s.params b s.queue) = pending s ++ [b]
    rw [hinv.contents_pushed hf, pending, List.append_assoc]

/-- Each step keeps the wiring, and takes the producer's next samples, if any. -/
theorem wired_step {rest : List Byte} {s t : State} (hw : Wired rest s) (h : step s = .next t) :
    ∃ taken rest', rest = taken ++ rest' ∧ Wired rest' t ∧ Captured taken s t := by
  obtain ⟨hmode, hpolicy, hinv, hproducer, hconsumer, hhost⟩ := hw
  have hparams : t.params = s.params := (parametersAreFixed s t).1 h
  have hinv' := queueInv_step h hinv
  cases hturn : s.turns with
  | nil =>
    cases (agentStepsOutsideTheCore.1 s hturn).symm.trans h
    exact ⟨[], rest, rfl, ⟨hmode, hpolicy, hinv, hproducer, hconsumer, hhost⟩,
      captured_nothing hpolicy ⟨rfl, rfl, rfl, rfl, rfl, rfl⟩ rfl rfl⟩
  | cons a turns =>
    have hother {b : Agent} (hb : b ≠ a) : ctxOf t b = ctxOf s b := ctxOf_step_of_ne hturn h hb
    cases a with
    | producer =>
      have hc : t.consumer = s.consumer := hother (b := .consumer) (by decide)
      have hh : t.host = s.host := hother (b := .host) (by decide)
      have hnone : (ctxOf s .producer).drain = none := by rw [ctxOf, hproducer]
      have wired {rest' : List Byte} (hp : t.producer = { requests := rest'.map .edge, drain := none, staging := [] }) :
          Wired rest' t :=
        ⟨hparams ▸ hmode, hparams ▸ hpolicy, hinv', hp, hc ▸ hconsumer, hh ▸ hhost⟩
      cases rest with
      | nil =>
        cases (step_of_idle hturn hnone (by rw [ctxOf, hproducer]; rfl)).symm.trans h
        exact ⟨[], [], rfl, wired hproducer, captured_nothing hpolicy (coreKept_turnTaken ..) rfl rfl⟩
      | cons b rest =>
        have hreq : (ctxOf s .producer).requests = .edge b :: rest.map .edge := by rw [ctxOf, hproducer]; rfl
        rw [step_of_request hturn hnone hreq] at h
        obtain ⟨hcaptured, hp⟩ := captured_of_sample hmode hpolicy hinv h
        exact ⟨[b], rest, rfl, wired (by rw [hp, hproducer]), hcaptured⟩
    | consumer =>
      have hp : t.producer = s.producer := hother (b := .producer) (by decide)
      have hh : t.host = s.host := hother (b := .host) (by decide)
      obtain ⟨hinOrder, hoverflows, hcompleted⟩ := consumes_of_step hpolicy hinv hturn hconsumer h
      exact ⟨[], rest, rfl,
        ⟨hparams ▸ hmode, hparams ▸ hpolicy, hinv', hp.trans hproducer, hinOrder, hh ▸ hhost⟩,
        .inr ⟨hoverflows, hcompleted⟩⟩
    | host =>
      have hp : t.producer = s.producer := hother (b := .producer) (by decide)
      have hc : t.consumer = s.consumer := hother (b := .consumer) (by decide)
      obtain ⟨hhost', hcore, hqueue⟩ := readsOnly_step hhost hturn h
      exact ⟨[], rest, rfl,
        ⟨hparams ▸ hmode, hparams ▸ hpolicy, hinv', hp.trans hproducer, hc ▸ hconsumer, hhost'⟩,
        captured_nothing hpolicy hcore hqueue hc⟩

/-- Along a run with no byte rejected what is left to decode grows by the samples taken, by induction on the steps. -/
theorem captured_runSteps {k : Nat} {bs : List Byte} {s t : State} (hw : Wired bs s) (hrun : runSteps k s = .next t) :
    ∃ taken rest, bs = taken ++ rest ∧ Wired rest t ∧ t.params = s.params ∧
      s.cstat.bufferOverflows ≤ t.cstat.bufferOverflows ∧
      (fits s.params.statw (s.cstat.bufferOverflows + 1) = true →
        t.cstat.bufferOverflows = s.cstat.bufferOverflows →
        DecodesAlike False (feedBytes taken (completed s)) (completed t)) := by
  induction k generalizing bs s with
  | zero =>
    cases hrun
    exact ⟨[], bs, rfl, hw, rfl, le_rfl,
      fun _ _ => completed_of_pending_eq (decodesAlike_of_frozen hw.policy rfl rfl rfl rfl) rfl⟩
  | succ k ih =>
    cases hstep : step s with
    | fault f => simp [runSteps, hstep] at hrun
    | refused r => simp [runSteps, hstep] at hrun
    | next u =>
      rw [runSteps_succ_of_next hstep] at hrun
      obtain ⟨first, others, rfl, hwu, hfirst⟩ := wired_step hw hstep
      obtain ⟨later, rest, rfl, hwt, hparams', hle, hlater⟩ := ih hwu hrun
      have hparams : u.params = s.params := (parametersAreFixed s u).1 hstep
      refine ⟨first ++ later, rest, (List.append_assoc ..).symm, hwt, hparams'.trans hparams, ?_, fun hfits hnone => ?_⟩
      · obtain hrejected | ⟨hkept, -⟩ := hfirst
        · exact (le_inc ..).trans (hrejected ▸ hle)
        · exact hkept ▸ hle
      · obtain hrejected | ⟨hkept, halike⟩ := hfirst
        · rw [inc_of_succ_fits hfits le_rfl] at hrejected
          omega
        · rw [feedBytes_append]
          exact (halike.feedBytes later).trans (hlater (by rw [hparams, hkept]; exact hfits) (hnone.trans hkept.symm))

/-- Settles O50: in direct mode the samples are decoded as fed, and in buffered mode what is left to decode
completes the same. -/
theorem bothModesDecodeTheSameStream : Obligations.BothModesDecodeTheSameStream := by
  constructor
  · intro bs s hinv hmode hpolicy hmeet hf hlength
    obtain ⟨tb, td, hbuffered, hdirect, hcontents, hdec, halike⟩ :=
      bothModesDecodeOneFilling bs hinv hmode hpolicy (isEmpty_iff.2 ⟨hmeet, hf⟩) hlength
    exact ⟨tb, td, hbuffered, hdirect, hcontents, hdec, halike.dec.symm, halike.trace.symm, halike.dstat.symm⟩
  · intro bs k s t hinv hmode hpolicy hmeet hf hproducer hdrain hstaging horder hidle hreads hfits hrun hnone
    obtain ⟨serves, hfollows⟩ := follows_of_keepsOrder hstaging horder
    have hnothing : pending s = [] := by
      rw [pending, hfollows.inFlight hdrain, hstaging, contents_of_isEmpty (isEmpty_iff.2 ⟨hmeet, hf⟩)]
      rfl
    have hstart : completed s = s := by rw [completed, hnothing]; rfl
    obtain ⟨taken, rest, hbs, hwt, hparams, -, hcaptured⟩ :=
      captured_runSteps ⟨hmode, hpolicy, hinv, hproducer, hfollows.inOrder hdrain, ⟨hidle, hreads⟩⟩ hrun
    obtain ⟨td, hdirect, htd⟩ := execAll_sample_inDirectMode taken hpolicy
    have hboth := (hcaptured hfits hnone).symm.trans (hstart ▸ htd)
    rw [completed, pending, hparams] at hboth
    exact ⟨taken, rest, td, hbs, by rw [hwt.producer], hdirect, hboth.dec.symm, hboth.trace.symm, hboth.dstat.symm⟩

end Sys2Proof.Machine
end

section
/-! The control operations (45_control_ops.md): the resets, the observer bits and the read-out of the statistics. -/

namespace Sys2Proof.Machine

open Sys2Proof

/-! ### The resets (R250, R251, R252) -/

/-- Settles O27: what RESET does to the Decoder Context is the whole of RESET. -/
theorem resetForcesTheFramingState : Obligations.ResetForcesTheFramingState := fun _ => rfl

/-- Settles O28: each of the two writes one record. -/
theorem statisticsResetsZeroTheirRecord : Obligations.StatisticsResetsZeroTheirRecord := fun _ => ⟨rfl, rfl⟩

/-! ### The observer bits (10_state.md R46) -/

/-- The four kinds are independent: setting one of them shows in that one alone (R253). -/
theorem getObs_setObs (j k : ObsKind) (v : Bool) (o : Observers) :
    getObs j (setObs k v o) = if j = k then v else getObs j o := by
  cases j <;> cases k <;> rfl

/-- Settles O30: SETOBS leaves the observers `setObs` makes, which reads `v` for its kind and as before for another. -/
theorem setobsWritesOneBit : Obligations.SetobsWritesOneBit := by
  intro k v s
  refine ⟨setObs k v s.dec.obs, rfl, ?_, fun j hjk => ?_⟩
  · rw [getObs_setObs, if_pos rfl]
  · rw [getObs_setObs, if_neg hjk]

/-! ### The register map (10_state.md R50) -/

/-- The sixteen registers in the order of their numbers, with 0 for the unassigned 7, 14 and 15. -/
def registerMap (s : State) : List Nat :=
  [s.dstat.framesReceived, s.dstat.linesReceived, s.dstat.pixelsReceived, s.dstat.timingErrors,
    s.dstat.syncErrors, s.dstat.dataErrors, s.dstat.lastFrameTime, 0,
    s.cstat.interruptsHandled, s.cstat.bytesCaptured, s.cstat.bufferOverflows, s.cstat.missedSamples,
    s.cstat.avgServiceTime, s.cstat.lastServiceTime, 0, 0]

/-- The machine's `x[i]` is the map's entry, at each of the sixteen numbers. -/
theorem readRegister_eq_getD (i : BitVec 4) (s : State) : readRegister i s = (registerMap s).getD i.toNat 0 := by
  have hi : i.toNat < 16 := i.isLt
  rw [readRegister]
  generalize i.toNat = n at hi
  interval_cases n <;> rfl

theorem exec_rdstat (i : BitVec 4) (s : State) :
    exec (.rdstat i) s = .next (giveResult (.port (readRegister i s)) s) := rfl

/-- Settles O31: the number on the port is the map's entry, and it is all that is given. -/
theorem rdstatReadsTheRegisterMap : Obligations.RdstatReadsTheRegisterMap := by
  intro i s
  rw [exec_rdstat, readRegister_eq_getD]
  rfl

end Sys2Proof.Machine
end

section
/-! Totality and the output (60_exceptions.md): the parameters creation accepts, the events of one PBYTE step, and the
runs of the agents' moves, none of which stops. -/

namespace Sys2Proof.Machine

open Sys2Proof

/-! ### Legal parameters (R287, 00_scope.md R9) -/

theorem Width.legal_iff {w : Width} : w.legal = true ↔ w ≠ .bits 0 := by
  cases w with
  | bits n => simp [Width.legal, Nat.one_le_iff_ne_zero]
  | unbounded => simp [Width.legal]

theorem Setup.legal_iff {v : Setup} : v.legal = true ↔
    1 ≤ v.qcap ∧ 1 ≤ v.maxw ∧ ∀ w ∈ [v.xyw, v.statw, v.timew], w ≠ .bits 0 := by
  simp only [Setup.legal, Bool.and_eq_true, decide_eq_true_eq, Width.legal_iff, List.forall_mem_cons]
  tauto

theorem create_of_legal {v : Setup} (h : v.legal = true) :
    create v = .ok (State.powerOn { toSetup := v, ok := h }) := dif_pos h

theorem create_of_not_legal {v : Setup} (h : ¬ v.legal = true) : create v = .error .setupRefused := dif_neg h

/-- Settles O2: creation asks whether the values are legal, and the parameters of a state carry the proof that they
are. -/
theorem illegalParametersBuildNoInstance : Obligations.IllegalParametersBuildNoInstance :=
  ⟨fun v => ⟨fun h => ⟨⟨v, Setup.legal_iff.2 h⟩, rfl, create_of_legal _⟩,
    fun h => create_of_not_legal (mt Setup.legal_iff.1 h)⟩,
   fun s => Setup.legal_iff.1 s.params.ok⟩

/-! ### The events of one PBYTE step (R289, R291, 40_timing_reference_detector.md R140) -/

/-- The observer bit an event is under (10_state.md R46). -/
def Event.kind : Event → ObsKind
  | .frame => .frame
  | .line _ => .line
  | .pixel .. => .pixel
  | .rgb .. => .rgb

/-- What a PBYTE step may show with the observers `o`: the events of a control byte or those of a sample, in order and
each at most once, and none whose observer is off. -/
structure PbyteEvents (o : Observers) (es : List Event) : Prop where
  order : (∃ n, es.Sublist [.frame, .line n]) ∨ (∃ d, es.Sublist [pixelEvent d, rgbEvent d])
  observed : ∀ e ∈ es, getObs e.kind o = true

theorem pbyteEvents_nil (o : Observers) : PbyteEvents o [] where
  order := .inl ⟨0, List.nil_sublist _⟩
  observed _ he := nomatch he

theorem if_singleton_sublist {α : Type} (on : Bool) (a : α) : (if on then [a] else []).Sublist [a] := by
  cases on with
  | false => exact List.nil_sublist _
  | true => exact List.Sublist.refl _

/-- A control byte shows `Frame` and then `Line`, each if its flag has risen and its observer is on. -/
theorem pbyteEvents_control (o : Observers) (v h : Bool) (n : Nat) :
    PbyteEvents o ((if v && o.frame then [.frame] else []) ++ (if h && o.line then [.line n] else [])) where
  order := .inl ⟨n, (if_singleton_sublist _ _).append (if_singleton_sublist _ _)⟩
  observed e he := by
    simp only [List.mem_append, List.mem_ite_nil_right, List.mem_singleton, Bool.and_eq_true] at he
    obtain ⟨⟨-, hon⟩, rfl⟩ | ⟨⟨-, hon⟩, rfl⟩ := he <;> exact hon

/-- A sample shows `Pixel` and then `Rgb`, each if its observer is on. -/
theorem pbyteEvents_sample (o : Observers) (d : Decoder) :
    PbyteEvents o ((if o.pixel then [pixelEvent d] else []) ++ (if o.rgb then [rgbEvent d] else [])) where
  order := .inr ⟨d, (if_singleton_sublist _ _).append (if_singleton_sublist _ _)⟩
  observed e he := by
    simp only [List.mem_append, List.mem_ite_nil_right, List.mem_singleton] at he
    obtain ⟨hon, rfl⟩ | ⟨hon, rfl⟩ := he <;> exact hon

/-- From `s` to `t` the trace has grown by what one PBYTE step may show. -/
def ShowsPbyteEvents (s t : State) : Prop := ∃ es, t.trace = s.trace ++ es ∧ PbyteEvents s.dec.obs es

theorem showsPbyteEvents_of_trace_eq {s t : State} (h : t.trace = s.trace) : ShowsPbyteEvents s t :=
  ⟨[], by rw [h, List.append_nil], pbyteEvents_nil _⟩

/-- A data byte shows a sample's events if it completes one, and nothing otherwise. -/
theorem showsPbyteEvents_offerData (b : Byte) (s : State) : ShowsPbyteEvents s (offerData b s) := by
  unfold offerData demux
  split
  · split
    case h_4 => exact ⟨_, List.append_assoc .., pbyteEvents_sample _ (storeCr b s).dec⟩
    all_goals exact showsPbyteEvents_of_trace_eq rfl
  · exact showsPbyteEvents_of_trace_eq rfl

theorem showsPbyteEvents_exec_xy {f : SyncFlags} {s t : State} (h : exec (.xy f) s = .next t) :
    ShowsPbyteEvents s t := by
  rw [(controlByteEffect f s).1] at h
  cases h
  exact ⟨_, (applyErrorPolicy_trace _).trans (List.append_assoc ..), pbyteEvents_control ..⟩

theorem showsPbyteEvents_feedByte (b : Byte) (s : State) : ShowsPbyteEvents s (feedByte b s) := by
  obtain ⟨u, hu, hdata | hmarker | ⟨hcontrol, -⟩⟩ := feedByte_cases b s
  · obtain ⟨es, htrace, hes⟩ := showsPbyteEvents_offerData b (setFsm (nextFsm s.dec.fsm b) s)
    exact ⟨es, by rw [hu, applyErrorPolicy_trace, hdata, htrace, setFsm_trace], hes⟩
  · exact showsPbyteEvents_of_trace_eq (by rw [hu, applyErrorPolicy_trace, hmarker, setFsm_trace])
  · exact showsPbyteEvents_exec_xy (exec_pbyte_eq_exec_xy hcontrol b).symm

/-- An event whose observer is off is not shown. -/
theorem PbyteEvents.not_mem {o : Observers} {es : List Event} (h : PbyteEvents o es) {e : Event}
    (hoff : getObs e.kind o = false) : e ∉ es := fun he => by
  rw [h.observed e he] at hoff
  cases hoff

/-- Settles O20: a byte is data, ends a marker or is the control byte, and shows the events of a sample, none, or those
of SYNC. -/
theorem eventsOfOnePbyteStep : Obligations.EventsOfOnePbyteStep := by
  intro b s
  obtain ⟨es, htrace, hes⟩ := showsPbyteEvents_feedByte b s
  refine ⟨_, es, rfl, htrace, hes.order.imp_right ?_, fun hoff => hes.not_mem hoff, fun hoff _ => hes.not_mem hoff,
    fun hoff _ _ _ _ _ => hes.not_mem hoff, fun hoff _ _ _ _ _ => hes.not_mem hoff⟩
  rintro ⟨d, hsample⟩
  exact ⟨_, _, _, _, _, _, _, _, hsample⟩

/-! ### Every operation is total (R280) -/

/-- With the cursors inside the memory every instruction answers a next state; only the four queue operations ask for
them. -/
theorem exec_total {s : State} (hinv : Queue.Inv s.params s.queue) (i : Instr) : ∃ t, exec i s = .next t := by
  cases i with
  | push b =>
    cases hf : s.queue.full with
    | true => exact ⟨_, execPush_of_full hf⟩
    | false => exact ⟨_, execPush_of_room hf hinv.wr_lt⟩
  | pop =>
    cases he : Queue.isEmpty s.queue with
    | true => exact ⟨_, execPop_of_isEmpty he⟩
    | false => exact ⟨_, execPop_of_nonempty he hinv.rd_lt⟩
  | drain n =>
    obtain ⟨t, ht⟩ := drainStep_ok hinv.rd_lt ⟨n, [], false⟩
    exact ⟨t, congrArg outcome ht⟩
  | sample b =>
    cases hmode : s.params.mode with
    | buffered =>
      obtain ⟨t, acc, ht⟩ := pushStep_ok (b := b) (s := countInterrupt s) hinv.wr_lt
      exact ⟨_, execSample_buffered hmode ht⟩
    | direct => exact ⟨_, execSample_direct hmode⟩
  | _ => exact ⟨_, rfl⟩

/-- So does every request of the running agent. -/
theorem startRequest_total {s : State} (hinv : Queue.Inv s.params s.queue) (r : Request) :
    ∃ t, (startRequest r s).run = .next t := by
  cases r with
  | command w => exact exec_total hinv _
  | byte b => exact exec_total hinv _
  | drainMax n => exact exec_total hinv (.drain _)
  | edge b => exact exec_total hinv (.sample b)
  | feed =>
    cases hstaging : (ctxOf s s.running).staging with
    | nil => exact ⟨s, congrArg Fetched.run (startRequest_feed_of_nothing_staged hstaging)⟩
    | cons b rest => exact ⟨_, congrArg Fetched.run (startRequest_feed_of_staged hstaging)⟩
  | service n =>
    obtain ⟨t, ht⟩ := drainStep_ok hinv.rd_lt ⟨n, [], true⟩
    exact ⟨t, congrArg outcome ht⟩
  | discard => exact ⟨_, rfl⟩

theorem State.Inv.goesOn {s : State} (hs : s.Inv) : s.goesOn := by
  have hinv := hs.queue
  unfold State.goesOn
  cases hturn : s.turns with
  | nil => exact ⟨s, agentStepsOutsideTheCore.1 s hturn⟩
  | cons a turns =>
    cases hdrain : (ctxOf s a).drain with
    | some d =>
      obtain ⟨t, ht⟩ := drainStep_ok (s := { s with turns := turns, running := a }) hinv.rd_lt d
      exact ⟨t, (step_of_drain hturn hdrain).trans (congrArg outcome ht)⟩
    | none =>
      cases hreq : (ctxOf s a).requests with
      | nil => exact ⟨_, step_of_idle hturn hdrain hreq⟩
      | cons r rs =>
        rw [step_of_request hturn hdrain hreq]
        exact startRequest_total (by simpa using hinv) r

/-! ### Runs (00_scope.md R18) -/

/-- A step moves the agent in turn only, and takes no output back. -/
theorem runnerOnly_step {s t : State} {a : Agent} {turns : List Agent} (hturn : s.turns = a :: turns)
    (h : step s = .next t) : RunnerOnly { s with turns := turns, running := a } t := by
  cases hdrain : (ctxOf s a).drain with
  | some d =>
    rw [step_of_drain hturn hdrain] at h
    exact runnerOnly_drainStep (eq_ok_of_outcome_eq_next h)
  | none =>
    cases hreq : (ctxOf s a).requests with
    | nil =>
      rw [step_of_idle hturn hdrain hreq] at h
      exact (RunnerOnly.refl _).of_next h
    | cons r rs =>
      rw [step_of_request hturn hdrain hreq] at h
      have hstart : RunnerOnly { s with turns := turns, running := a } (started a rs turns s) :=
        runnerOnly_setCtx_running _ _
      exact hstart.trans (runnerOnly_run_startRequest h)

/-- Giving an agent the turn and an operation leaves the core as it is. -/
theorem progress_offer (m : Move) (s : State) : Progress s (offer m s) :=
  progress_of_core_eq (offer_params m s) (offer_dec m s) (offer_queue m s) (offer_dstat m s) (offer_cstat m s)

/-- The state a move leaves; a move that stops leaves the state as it is. -/
def moved (m : Move) (s : State) : State :=
  match stepMove m s with
  | .next t => t
  | .fault _ | .refused _ => s

theorem stepMove_eq_moved {s : State} (hs : s.Inv) (m : Move) : stepMove m s = .next (moved m s) := by
  obtain ⟨t, ht⟩ := ((progress_offer m s).inv hs).goesOn
  have hmove : stepMove m s = .next t := ht
  rw [moved, hmove]

theorem inv_moved {s : State} (hs : s.Inv) (m : Move) : (moved m s).Inv :=
  (everyStepKeepsTheInvariant _ ((progress_offer m s).inv hs)).1 _ (stepMove_eq_moved hs m)

/-- A move takes back nothing of the trace and the results. -/
theorem output_grows_moved {s : State} (hs : s.Inv) (m : Move) :
    s.trace <+: (moved m s).trace ∧ s.results <+: (moved m s).results := by
  obtain ⟨-, -, -, htrace, hresults⟩ := runnerOnly_step (offer_turns m s) (stepMove_eq_moved hs m)
  exact ⟨offer_trace m s ▸ htrace, offer_results m s ▸ hresults⟩

theorem runMoves_total (ms : List Move) {s : State} (hs : s.Inv) : ∃ t, runMoves ms s = .next t ∧ t.Inv := by
  induction ms generalizing s with
  | nil => exact ⟨s, rfl, hs⟩
  | cons m ms ih =>
    rw [runMoves, stepMove_eq_moved hs m]
    exact ih (inv_moved hs m)

/-- The states of the infinite run of the moves `moves` from power-on. -/
def runState (p : Params) (moves : Nat → Move) : Nat → State
  | 0 => State.powerOn p
  | k + 1 => moved (moves k) (runState p moves k)

theorem inv_runState (p : Params) (moves : Nat → Move) (k : Nat) : (runState p moves k).Inv := by
  induction k with
  | zero => exact invariantHoldsAtPowerOn.1 p
  | succ k ih => exact inv_moved ih (moves k)

theorem isRun_runState (p : Params) (moves : Nat → Move) : isRun p moves (runState p moves) :=
  ⟨rfl, fun k => stepMove_eq_moved (inv_runState p moves k) (moves k)⟩

/-- Settles O54: the invariant holds at power-on, every move keeps it, and under it no step stops. -/
theorem nothingStopsTheMachine : Obligations.NothingStopsTheMachine :=
  ⟨fun _ hs => ⟨hs.goesOn, exec_total hs.queue⟩,
   fun p ms => runMoves_total ms (invariantHoldsAtPowerOn.1 p),
   fun p moves => ⟨runState p moves, isRun_runState p moves, fun k =>
     have hs := inv_runState p moves k
     ⟨hs, output_grows_moved hs (moves k)⟩⟩⟩

end Sys2Proof.Machine
end

section
/-! Reset and power-on (70_reset_and_hazards.md): the creation state, and that decoding after a RESET does not depend on
the sample components the RESET keeps. -/

namespace Sys2Proof.Machine

open Sys2Proof

/-- Settles O1: the state of power-on is written with these values, and its queue memory lists no cell. -/
theorem powerOnIsTheCreationState : Obligations.PowerOnIsTheCreationState := fun _ =>
  ⟨rfl, rfl, rfl, rfl, fun _ => rfl, rfl, rfl⟩

/-! ### The sample components a later event can show (10_state.md R28, R29) -/

/-- The decoders `d` and `e` differ at most in components that are written again before an event shows them: at Y1 and
CB any of the three, at Y2 all but `cur_cb`, at CR `cur_cr` alone. -/
structure Decoder.ShowsAlike (d e : Decoder) : Prop where
  framing : e.framing = d.framing
  chroma : d.phase = .y2 ∨ d.phase = .cr → e.curCb = d.curCb
  luma : d.phase = .cr → e.curY = d.curY

theorem Decoder.ShowsAlike.refl (d : Decoder) : d.ShowsAlike d := ⟨rfl, fun _ => rfl, fun _ => rfl⟩

theorem Decoder.exists_sample_of_framing_eq {d e : Decoder} (h : e.framing = d.framing) :
    ∃ y cb cr, e = { d with curY := y, curCb := cb, curCr := cr } :=
  ⟨e.curY, e.curCb, e.curCr,
    congrArg (fun f : Decoder => { f with curY := e.curY, curCb := e.curCb, curCr := e.curCr }) h⟩

/-- At CR the one component that may differ is written, and the samples are equal. -/
theorem Decoder.ShowsAlike.storeCr_eq {d e : Decoder} (h : d.ShowsAlike e) (hphase : d.phase = .cr) (b : Byte) :
    { e with curCr := b } = { d with curCr := b } := by
  obtain ⟨hframing, hchroma, hluma⟩ := h
  obtain ⟨y, cb, cr, rfl⟩ := Decoder.exists_sample_of_framing_eq hframing
  rw [← hluma hphase, ← hchroma (.inr hphase)]

/-- The byte that completes a marker is the class FF00.00 (40_timing_reference_detector.md R143). -/
theorem feedByte_of_marker_completed {s : State} (hff00 : s.dec.fsm = .ff00) :
    feedByte 0x00#8 s = applyErrorPolicy (armFf00Zero s) :=
  feedByte_of_exec_pbyte (exec_pbyte_of_fsm hff00 0x00#8)

/-! ### Decoding after different pasts (R312) -/

/-- `t` decodes as `s` does, and its trace is that of `s` behind the events `before`. Statistics and free values have
no part in this. -/
structure DecodesAfter (before : List Event) (s t : State) : Prop where
  params : t.params = s.params
  dec : s.dec.ShowsAlike t.dec
  trace : t.trace = before ++ s.trace

section
variable {before : List Event} {s t : State}

theorem DecodesAfter.framing (h : DecodesAfter before s t) : t.dec.framing = s.dec.framing := h.dec.framing

theorem DecodesAfter.fsm (h : DecodesAfter before s t) : t.dec.fsm = s.dec.fsm :=
  (congrArg Decoder.fsm h.framing : _)
theorem DecodesAfter.phase (h : DecodesAfter before s t) : t.dec.phase = s.dec.phase :=
  (congrArg Decoder.phase h.framing : _)
theorem DecodesAfter.active (h : DecodesAfter before s t) : t.dec.active = s.dec.active :=
  (congrArg Decoder.active h.framing : _)

theorem DecodesAfter.setFsm (h : DecodesAfter before s t) (f : Fsm) :
    DecodesAfter before (setFsm f s) (setFsm f t) :=
  ⟨h.params, ⟨congrArg (fun d : Decoder => { d with fsm := f }) h.framing, h.dec.chroma, h.dec.luma⟩, h.trace⟩

theorem DecodesAfter.applyErrorPolicy (h : DecodesAfter before s t) :
    DecodesAfter before (applyErrorPolicy s) (applyErrorPolicy t) := by
  obtain ⟨hparams, hdec, htrace⟩ := h
  constructor <;> simpa

/-- The sample shown at CR is the same after both. -/
theorem DecodesAfter.demuxCr (h : DecodesAfter before s t) (hphase : s.dec.phase = .cr) (b : Byte) :
    DecodesAfter before (demuxCr b s) (demuxCr b t) := by
  have hstored : (storeCr b t).dec = (storeCr b s).dec := h.dec.storeCr_eq hphase b
  have hdec : (Machine.demuxCr b t).dec = (Machine.demuxCr b s).dec := by
    simp [Machine.demuxCr, endGroup, dispatchSample, hstored, h.params]
  refine ⟨h.params, hdec ▸ .refl _, ?_⟩
  simp [Machine.demuxCr, dispatchSample, hstored, h.trace]

theorem DecodesAfter.demux (h : DecodesAfter before s t) (b : Byte) :
    DecodesAfter before (demux b s) (demux b t) := by
  unfold Machine.demux
  rw [h.phase]
  cases hs : s.dec.phase with
  | y1 =>
    exact ⟨h.params, ⟨congrArg (fun d : Decoder => { d with phase := .cb }) h.framing, nofun, nofun⟩, h.trace⟩
  | cb =>
    exact ⟨h.params, ⟨congrArg (fun d : Decoder => { d with phase := .y2 }) h.framing, fun _ => rfl, nofun⟩, h.trace⟩
  | y2 =>
    have hchroma := h.dec.chroma (.inl hs)
    exact ⟨h.params, ⟨congrArg (fun d : Decoder => { d with phase := .cr }) h.framing, fun _ => hchroma, fun _ => rfl⟩,
      h.trace⟩
  | cr => exact h.demuxCr hs b

theorem DecodesAfter.offerData (h : DecodesAfter before s t) (b : Byte) :
    DecodesAfter before (offerData b s) (offerData b t) := by
  unfold Machine.offerData
  rw [h.active]
  split
  · exact h.demux b
  · exact h

theorem DecodesAfter.armFf00Zero (h : DecodesAfter before s t) :
    DecodesAfter before (armFf00Zero s) (armFf00Zero t) := by
  unfold Machine.armFf00Zero
  rw [h.params]
  split
  · exact (h.setFsm _).offerData _
  · exact h.setFsm _

/-- A control byte reads no component, and keeps the phase or sets it to Y1. -/
theorem DecodesAfter.exec_xy (h : DecodesAfter before s t) (f : SyncFlags) :
    ∃ u v, exec (.xy f) s = .next u ∧ exec (.xy f) t = .next v ∧ DecodesAfter before u v := by
  refine ⟨_, _, (controlByteEffect f s).1, (controlByteEffect f t).1, DecodesAfter.applyErrorPolicy ?_⟩
  obtain ⟨hparams, ⟨hframing, hchroma, hluma⟩, htrace⟩ := h
  obtain ⟨y, cb, cr, hdec⟩ := Decoder.exists_sample_of_framing_eq hframing
  rw [hdec] at hchroma hluma
  simp only [hdec, hparams, htrace]
  refine ⟨rfl, ?_, by simp⟩
  cases f.sav with
  | false => exact ⟨rfl, hchroma, hluma⟩
  | true => exact ⟨rfl, nofun, nofun⟩

theorem DecodesAfter.feedByte (h : DecodesAfter before s t) (b : Byte) :
    DecodesAfter before (feedByte b s) (feedByte b t) := by
  by_cases hcontrol : s.dec.fsm = .ff0000 ∨ s.dec.fsm = .controlByte
  · obtain ⟨u, v, hu, hv, huv⟩ := h.exec_xy (controlFlags b)
    rw [feedByte_of_exec_pbyte ((exec_pbyte_eq_exec_xy hcontrol b).trans hu),
      feedByte_of_exec_pbyte ((exec_pbyte_eq_exec_xy (h.fsm ▸ hcontrol) b).trans hv)]
    exact huv
  by_cases hmarker : nextFsm s.dec.fsm b = .ff0000
  · obtain ⟨hff00, rfl⟩ := nextFsm_eq_ff0000_iff.1 hmarker
    rw [feedByte_of_marker_completed hff00, feedByte_of_marker_completed (h.fsm.trans hff00)]
    exact h.armFf00Zero.applyErrorPolicy
  · rw [feedByte_eq_dataStep hcontrol hmarker,
      feedByte_eq_dataStep (h.fsm.symm ▸ hcontrol) (h.fsm.symm ▸ hmarker), dataStep, dataStep, h.fsm]
    exact ((h.setFsm _).offerData b).applyErrorPolicy

theorem DecodesAfter.feedBytes (h : DecodesAfter before s t) (bs : List Byte) :
    DecodesAfter before (feedBytes bs s) (feedBytes bs t) := by
  induction bs generalizing s t with
  | nil => exact h
  | cons b bs ih => exact ih (h.feedByte b)

end

/-- RESET restores all but the components and the observers, and the phase Y1 asks for none of the components (R312). -/
theorem decodesAfter_reset (s : State) :
    DecodesAfter s.trace { State.powerOn s.params with dec := { (State.powerOn s.params).dec with obs := s.dec.obs } }
      { s with dec := resetDecoder s.dec } :=
  ⟨rfl, ⟨rfl, nofun, nofun⟩, (List.append_nil _).symm⟩

/-- Settles O29: the events after the RESET are those shown from power-on. -/
theorem resetDecodesLikePowerOn : Obligations.ResetDecodesLikePowerOn := by
  intro bs s
  obtain ⟨-, hdec, htrace⟩ := (decodesAfter_reset s).feedBytes bs
  exact ⟨_, _, rfl, htrace, rfl, hdec.framing⟩

end Sys2Proof.Machine
end
